-- ==== Sys2Proof/Word.lean ====
section
/-! DEFINITION. The unsigned widths of the block (R13): bytes, 15-bit lengths, 16-bit CRC values, 32-bit tick counts. -/

namespace Sys2Proof

/-- A byte, `u8` (R13). -/
abbrev Byte := BitVec 8

/-- A payload length, `u15` (R13, R20). -/
abbrev U15 := BitVec 15

/-- A CRC value, `u16` (R13, R110). -/
abbrev U16 := BitVec 16

/-- A tick count, `u32` (R13, R256). -/
abbrev U32 := BitVec 32

end Sys2Proof
end

