-- ==== Sys2Proof/Syntax.lean ====
section
/-! DEFINITION. The inputs of the block (R10): one constructor for each row of spec/opcode_table.json, the ports
they come on, and the ways a port's bytes can fail to be an input. -/

namespace Sys2Proof

/-- Where an input is presented. The table's rows stand in five separate code spaces, so that a select code alone
does not name a row (notes/assumptions/3.md). -/
inductive Port where
  /-- The host port: a 4-bit operation select and the operands (R100). -/
  | host
  /-- The environment's events: a 3-bit select and the operand (R103). -/
  | event
  /-- A frame the peer sends, from its first length byte on; `START_MARKER` stands before it (R81, R82). -/
  | frame
  /-- The bytes of a length field arriving alone (R85). -/
  | length
  /-- The request of one of the six commands, by its code (R95). -/
  | command
deriving DecidableEq, Repr

/-- Why bytes presented on a port are no input. -/
inductive DecodeError where
  /-- No byte at all. -/
  | empty
  /-- The select does not fit its field: 4 bits on the host port (R100), 3 bits for an event (R103). -/
  | selectTooWide
  /-- The bytes end before the last operand does. -/
  | truncated
  /-- A byte string over the operand's limit (R101). -/
  | countTooLong
  /-- The byte of the 1-bit operand `use_default` is neither 0 nor 1 (R100). -/
  | notABit
  /-- A command code outside the six of R95. Any code can be sent through SEND_COMMAND (R96). -/
  | unknownCommand
deriving DecidableEq, Repr

/-- An input: a host operation, an event, a frame, a length field or a command request. -/
inductive Instr where
  -- host operations (R100)
  /-- CRC16(data), R115. -/
  | crc16 (data : List Byte)
  /-- ENCODE(payload), R132. -/
  | encode (payload : List Byte)
  /-- DECODE(buf), R165. -/
  | decode (buf : List Byte)
  /-- CONNECT, R185. -/
  | connect
  /-- DISCONNECT, R190. -/
  | disconnect
  /-- SEND_COMMAND(cmd, args, use_default, timeout), R193. -/
  | sendCommand (cmd : Byte) (args : List Byte) (useDefault : Bool) (timeout : U32)
  /-- READ_ONE(use_default, timeout), R200. -/
  | readOne (useDefault : Bool) (timeout : U32)
  /-- XMIT(payload), R205. -/
  | xmit (payload : List Byte)
  /-- FLUSH, R207. -/
  | flush
  /-- RAW_DRAIN(window, per_read), R210. -/
  | rawDrain (window : U32) (perRead : U32)
  /-- CRC.INIT, R111. -/
  | crcInit
  /-- CRC.BYTE(b), R113. -/
  | crcByte (b : Byte)
  -- reserved selects (R102)
  /-- Reserved select `0x0`, R102. -/
  | reserved0
  /-- Reserved select `0xD`, R102. -/
  | reservedD
  /-- Reserved select `0xE`, R102. -/
  | reservedE
  /-- Reserved select `0xF`, R102. -/
  | reservedF
  -- environment events (R103)
  /-- RESET, R270. -/
  | reset
  /-- RX_BYTE(b), R51, R197, R212. -/
  | rxByte (b : Byte)
  /-- RX_ERROR, R216. -/
  | rxError
  /-- TX_DRAINED, R195, R208. -/
  | txDrained
  /-- TX_ERROR, R216. -/
  | txError
  /-- OPEN_OK, R186. -/
  | openOk
  /-- OPEN_FAIL, R187. -/
  | openFail
  /-- TICK, R188, R198, R214. -/
  | tick
  -- wire formats
  /-- FRAME.S, R81: a frame with a 1-byte length field. The CRC field and the stop byte are fields, since a frame
  may carry wrong ones (R89). -/
  | frameS (payload : List Byte) (crc : U16) (stop : Byte)
  /-- FRAME.L, R82: a frame with a 2-byte length field, canonical or not (R88). -/
  | frameL (payload : List Byte) (crc : U16) (stop : Byte)
  /-- LEN.S, R85: the 1-byte length field. -/
  | lenS (n : BitVec 7)
  /-- LEN.L, R85: the 2-byte length field. -/
  | lenL (n : U15)
  -- command bytes (R95)
  /-- FW_VERSION, code `0x00`, no arguments. -/
  | fwVersion
  /-- GET_VALUES, code `0x04`; its arguments are not stated (N9), so any byte string. -/
  | getValues (args : List Byte)
  /-- FORWARD_CAN, code `0x22`: target address and inner command bytes. -/
  | forwardCan (target : Byte) (inner : List Byte)
  /-- PING_CAN, code `0x3E`, no arguments. -/
  | pingCan
  /-- GET_CUSTOM_CONFIG, code `0x5D`, one argument byte. -/
  | getCustomConfig (arg : Byte)
  /-- BMS_GET_VALUES, code `0x60`, no arguments. -/
  | bmsGetValues
deriving DecidableEq, Repr

end Sys2Proof
end

