-- ==== Sys2Proof/WellFormed.lean ====
section
/-! DEFINITION. The operand limits (R100, R101, R81, R82): which terms of Instr a port can carry. -/

namespace Sys2Proof

/-- The largest payload, `MAX_PAYLOAD` (R9). -/
def maxPayload : Nat := 32767

/-- The largest frame: `MAX_PAYLOAD` with a 3-byte header, the CRC field and the stop byte (R91). -/
def maxFrame : Nat := 32773

/-- `i.wf drainMax`: every operand of `i` is inside its limit, where `drainMax` is `DRAIN_MAX`. A byte string of
DECODE is at most `max(32773, DRAIN_MAX)` bytes and its count is 16 bits (R100, R101). -/
def Instr.wf (drainMax : Nat) : Instr → Bool
  | .crc16 data => data.length ≤ maxPayload
  | .encode payload => payload.length ≤ maxPayload
  | .decode buf => (buf.length ≤ maxFrame || buf.length ≤ drainMax) && buf.length < 65536
  | .sendCommand _ args _ _ => args.length < maxPayload
  | .xmit payload => payload.length ≤ maxPayload
  | .frameS payload _ _ => payload.length < 128
  | .frameL payload _ _ => payload.length ≤ maxPayload
  | .getValues args => args.length < maxPayload
  | .forwardCan _ inner => inner.length + 1 < maxPayload
  | .connect | .disconnect | .readOne _ _ | .flush | .rawDrain _ _ | .crcInit | .crcByte _ => true
  | .reserved0 | .reservedD | .reservedE | .reservedF => true
  | .reset | .rxByte _ | .rxError | .txDrained | .txError | .openOk | .openFail | .tick => true
  | .lenS _ | .lenL _ => true
  | .fwVersion | .pingCan | .getCustomConfig _ | .bmsGetValues => true

end Sys2Proof
end

