-- ==== Sys2Proof/Decode.lean ====
section
/-! DEFINITION. From the bytes presented on a port to an input and back. The selects, the length field, the CRC
field and the command codes are the specification's (R81, R82, R85, R86, R95, R100, R103); the order of the operands
after a select is that of R100 and R105, and their bytes are laid out as notes/assumptions/2.md says. -/

namespace Sys2Proof

/-! ## Bytes of wider values: most significant byte first (R56) -/

/-- `v[15:8]`. -/
def hiByte (v : U16) : Byte := v.extractLsb' 8 8

/-- `v[7:0]`. -/
def loByte (v : U16) : Byte := v.extractLsb' 0 8

/-- The 16-bit value of two bytes, high byte first (R56). -/
def joinU16 (hi lo : Byte) : U16 := hi ++ lo

/-- The four bytes of a 32-bit value, most significant first. -/
def bytesU32 (v : U32) : List Byte :=
  [v.extractLsb' 24 8, v.extractLsb' 16 8, v.extractLsb' 8 8, v.extractLsb' 0 8]

/-- The 32-bit value of four bytes, most significant first. -/
def joinU32 (a b c d : Byte) : U32 := a ++ b ++ c ++ d

/-- The two bytes of a count below 65536, high byte first. -/
def bytesCount (n : Nat) : List Byte := [BitVec.ofNat 8 (n / 256), BitVec.ofNat 8 n]

/-- `LenField(N)` of R85, for `N` up to 32767: one byte below 128, else two with bit 7 of the first set. -/
def lenField (n : Nat) : List Byte :=
  if n < 128 then [BitVec.ofNat 8 n] else [0x80#8 ||| BitVec.ofNat 8 (n / 256), BitVec.ofNat 8 n]

/-- The 2-byte length field of a 15-bit value, whatever the value (R82, R88). -/
def lenFieldLong (n : U15) : List Byte := [1#1 ++ n.extractLsb' 8 7, n.extractLsb' 0 8]

/-! ## Operands -/

/-- The next `n` bytes and the rest. -/
def takeBytes (n : Nat) (bs : List Byte) : Except DecodeError (List Byte × List Byte) :=
  if n ≤ bs.length then .ok (bs.take n, bs.drop n) else .error .truncated

/-- A byte-string operand: its count in two bytes, at most `limit`, then its bytes (R101). -/
def takeString (limit : Nat) : List Byte → Except DecodeError (List Byte × List Byte)
  | hi :: lo :: rest =>
    if hi.toNat * 256 + lo.toNat ≤ limit then takeBytes (hi.toNat * 256 + lo.toNat) rest else .error .countTooLong
  | _ => .error .truncated

/-- A `u8` operand. -/
def takeByte : List Byte → Except DecodeError (Byte × List Byte)
  | b :: rest => .ok (b, rest)
  | [] => .error .truncated

/-- A `u32` operand. -/
def takeU32 : List Byte → Except DecodeError (U32 × List Byte)
  | a :: b :: c :: d :: rest => .ok (joinU32 a b c d, rest)
  | _ => .error .truncated

/-- A 1-bit operand, in a byte of its own. -/
def takeBit : List Byte → Except DecodeError (Bool × List Byte)
  | b :: rest => if b = 0#8 then .ok (false, rest) else if b = 1#8 then .ok (true, rest) else .error .notABit
  | [] => .error .truncated

/-- The CRC field, high byte first, and the stop byte of a frame (R81, R82). -/
def takeCrcStop : List Byte → Except DecodeError ((U16 × Byte) × List Byte)
  | hi :: lo :: stop :: rest => .ok ((joinU16 hi lo, stop), rest)
  | _ => .error .truncated

/-! ## The ports -/

/-- The host port: the operation select of R100, then the operands. -/
def decodeHost (op : Nat) (bs : List Byte) : Except DecodeError (Instr × List Byte) :=
  match op with
  | 0x0 => .ok (.reserved0, bs)
  | 0x1 => do
    let (data, r) ← takeString maxPayload bs
    .ok (.crc16 data, r)
  | 0x2 => do
    let (payload, r) ← takeString maxPayload bs
    .ok (.encode payload, r)
  | 0x3 => do
    let (buf, r) ← takeString 65535 bs
    .ok (.decode buf, r)
  | 0x4 => .ok (.connect, bs)
  | 0x5 => .ok (.disconnect, bs)
  | 0x6 => do
    let (cmd, r) ← takeByte bs
    let (args, r) ← takeString (maxPayload - 1) r
    let (useDefault, r) ← takeBit r
    let (timeout, r) ← takeU32 r
    .ok (.sendCommand cmd args useDefault timeout, r)
  | 0x7 => do
    let (useDefault, r) ← takeBit bs
    let (timeout, r) ← takeU32 r
    .ok (.readOne useDefault timeout, r)
  | 0x8 => do
    let (payload, r) ← takeString maxPayload bs
    .ok (.xmit payload, r)
  | 0x9 => .ok (.flush, bs)
  | 0xA => do
    let (window, r) ← takeU32 bs
    let (perRead, r) ← takeU32 r
    .ok (.rawDrain window perRead, r)
  | 0xB => .ok (.crcInit, bs)
  | 0xC => do
    let (b, r) ← takeByte bs
    .ok (.crcByte b, r)
  | 0xD => .ok (.reservedD, bs)
  | 0xE => .ok (.reservedE, bs)
  | 0xF => .ok (.reservedF, bs)
  | _ => .error .selectTooWide

/-- The events: the select of R103, then the operand of RX_BYTE. -/
def decodeEvent (code : Nat) (bs : List Byte) : Except DecodeError (Instr × List Byte) :=
  match code with
  | 0 => .ok (.reset, bs)
  | 1 => do
    let (b, r) ← takeByte bs
    .ok (.rxByte b, r)
  | 2 => .ok (.rxError, bs)
  | 3 => .ok (.txDrained, bs)
  | 4 => .ok (.txError, bs)
  | 5 => .ok (.openOk, bs)
  | 6 => .ok (.openFail, bs)
  | 7 => .ok (.tick, bs)
  | _ => .error .selectTooWide

/-- A frame from its first length byte on (R81, R82); bit 7 of that byte selects the format (R86). -/
def decodeFrame (b0 : Byte) (bs : List Byte) : Except DecodeError (Instr × List Byte) :=
  if b0.msb then do
    let (b1, r) ← takeByte bs
    let (payload, r) ← takeBytes ((b0.toNat - 128) * 256 + b1.toNat) r
    let ((crc, stop), r) ← takeCrcStop r
    .ok (.frameL payload crc stop, r)
  else do
    let (payload, r) ← takeBytes b0.toNat bs
    let ((crc, stop), r) ← takeCrcStop r
    .ok (.frameS payload crc stop, r)

/-- A length field alone (R86). -/
def decodeLength (b0 : Byte) (bs : List Byte) : Except DecodeError (Instr × List Byte) :=
  if b0.msb then do
    let (b1, r) ← takeByte bs
    .ok (.lenL (b0.extractLsb' 0 7 ++ b1), r)
  else .ok (.lenS (b0.extractLsb' 0 7), bs)

/-- A command request: the code of R95, then the arguments. -/
def decodeCommand (code : Nat) (bs : List Byte) : Except DecodeError (Instr × List Byte) :=
  match code with
  | 0x00 => .ok (.fwVersion, bs)
  | 0x04 => do
    let (args, r) ← takeString (maxPayload - 1) bs
    .ok (.getValues args, r)
  | 0x22 => do
    let (target, r) ← takeByte bs
    let (inner, r) ← takeString (maxPayload - 2) r
    .ok (.forwardCan target inner, r)
  | 0x3E => .ok (.pingCan, bs)
  | 0x5D => do
    let (arg, r) ← takeByte bs
    .ok (.getCustomConfig arg, r)
  | 0x60 => .ok (.bmsGetValues, bs)
  | _ => .error .unknownCommand

/-- The input that bytes presented on a port are, and the bytes after it. -/
def decode (port : Port) : List Byte → Except DecodeError (Instr × List Byte)
  | [] => .error .empty
  | b :: bs =>
    match port with
    | .host => decodeHost b.toNat bs
    | .event => decodeEvent b.toNat bs
    | .frame => decodeFrame b bs
    | .length => decodeLength b bs
    | .command => decodeCommand b.toNat bs

/-! ## The encoder -/

/-- A byte-string operand on a port: count, then bytes. -/
def bytesString (s : List Byte) : List Byte := bytesCount s.length ++ s

/-- A 1-bit operand on a port. -/
def bytesBit (b : Bool) : List Byte := [if b then 1#8 else 0#8]

/-- The port of an input and its bytes there. -/
def encode : Instr → Port × List Byte
  | .reserved0 => (.host, [0x0])
  | .crc16 data => (.host, 0x1 :: bytesString data)
  | .encode payload => (.host, 0x2 :: bytesString payload)
  | .decode buf => (.host, 0x3 :: bytesString buf)
  | .connect => (.host, [0x4])
  | .disconnect => (.host, [0x5])
  | .sendCommand cmd args useDefault timeout =>
    (.host, 0x6 :: cmd :: (bytesString args ++ bytesBit useDefault ++ bytesU32 timeout))
  | .readOne useDefault timeout => (.host, 0x7 :: (bytesBit useDefault ++ bytesU32 timeout))
  | .xmit payload => (.host, 0x8 :: bytesString payload)
  | .flush => (.host, [0x9])
  | .rawDrain window perRead => (.host, 0xA :: (bytesU32 window ++ bytesU32 perRead))
  | .crcInit => (.host, [0xB])
  | .crcByte b => (.host, [0xC, b])
  | .reservedD => (.host, [0xD])
  | .reservedE => (.host, [0xE])
  | .reservedF => (.host, [0xF])
  | .reset => (.event, [0])
  | .rxByte b => (.event, [1, b])
  | .rxError => (.event, [2])
  | .txDrained => (.event, [3])
  | .txError => (.event, [4])
  | .openOk => (.event, [5])
  | .openFail => (.event, [6])
  | .tick => (.event, [7])
  | .frameS payload crc stop =>
    (.frame, lenField payload.length ++ payload ++ [hiByte crc, loByte crc, stop])
  | .frameL payload crc stop =>
    (.frame, lenFieldLong (BitVec.ofNat 15 payload.length) ++ payload ++ [hiByte crc, loByte crc, stop])
  | .lenS n => (.length, [0#1 ++ n])
  | .lenL n => (.length, lenFieldLong n)
  | .fwVersion => (.command, [0x00])
  | .getValues args => (.command, 0x04 :: bytesString args)
  | .forwardCan target inner => (.command, 0x22 :: target :: bytesString inner)
  | .pingCan => (.command, [0x3E])
  | .getCustomConfig arg => (.command, [0x5D, arg])
  | .bmsGetValues => (.command, [0x60])

/-! ## Words of the opcode table -/

/-- The port a bare word of spec/opcode_table.json is taken for (notes/assumptions/3.md). The table's five code
spaces overlap, so a word below 16 is the host port's select, one of the six command codes above it is that
command, and any other single byte is the first length byte of a frame. The table's only wider row is LEN.L. -/
def tablePort (nbits w : Nat) : Port :=
  if nbits ≤ 3 then .event
  else if nbits ≤ 4 then .host
  else if 8 < nbits then .length
  else if w < 16 then .host
  else if w = 0x22 ∨ w = 0x3E ∨ w = 0x5D ∨ w = 0x60 then .command
  else .frame

/-- How many zero bytes stand after a bare word: enough for every operand of the longest input it can begin. -/
def tablePadding (w : Nat) : Nat := 16 + (if w < 128 then w else (w - 128) * 256)

/-- The bytes of a bare table word, the operands above it zero. LEN.L's match 0x8000 numbers its two bytes most
significant first. -/
def tableBytes (nbits w : Nat) : List Byte :=
  if 8 < nbits then [BitVec.ofNat 8 (w / 256), BitVec.ofNat 8 w]
  else BitVec.ofNat 8 w :: List.replicate (tablePadding w) 0#8

/-- The input the decoder reads from a word of the opcode table. -/
def decodeTableWord (nbits w : Nat) : Option Instr :=
  match decode (tablePort nbits w) (tableBytes nbits w) with
  | .ok (i, _) => some i
  | .error _ => none

end Sys2Proof
end

