-- ==== Sys2Proof/Config.lean ====
section
/-! DEFINITION. What an implementation fixes (R8, R31) and the free values: constants without a body, so that no
proof can see what they are. -/

namespace Sys2Proof

/-- The open parameters a running block reads (R8, R31), as one record that no input changes. `auth_len` is the
length of `authLine`. -/
structure Params where
  /-- `START_MARKER` (R84). -/
  startMarker : Byte
  /-- `STOP_MARKER` (R84); it may equal `START_MARKER`. -/
  stopMarker : Byte
  /-- `SETTLE_TICKS` (R186). -/
  settleTicks : U32
  /-- `DEFAULT_TIMEOUT_TICKS` (R101). -/
  defaultTimeoutTicks : U32
  /-- `AUTH_EN` (R186). -/
  authEn : Bool
  /-- `AUTH_LINE` (R97), opaque bytes; its length is `auth_len`. -/
  authLine : List Byte
  /-- `AUTH_MAX` (R8), the bound on `auth_len`. -/
  authMax : Nat
  /-- `DRAIN_MAX` (R213), the size of `DBUF`. -/
  drainMax : Nat
deriving DecidableEq, Repr

/-- The constraints R8 puts on the parameters: `DRAIN_MAX` at least 1, `AUTH_MAX` at least 3, and an
authentication line of at most `AUTH_MAX` bytes. -/
abbrev Params.wf (p : Params) : Prop := 1 ≤ p.drainMax ∧ 3 ≤ p.authMax ∧ p.authLine.length ≤ p.authMax

namespace Config

/-- `START_MARKER`: the source gives no value (N1). -/
opaque startMarker : Byte
/-- `STOP_MARKER`: the source gives no value (N1). -/
opaque stopMarker : Byte
/-- `SETTLE_TICKS`: open (D9). -/
opaque settleTicks : U32
/-- `DEFAULT_TIMEOUT_TICKS`: open (D9, N4). -/
opaque defaultTimeoutTicks : U32
/-- `AUTH_EN`: the host's statement that both identity fields are configured (D18). -/
opaque authEn : Bool
/-- The finished authentication line before it is cut to `AUTH_MAX` bytes (D18, N3). -/
opaque authText : List Byte
/-- How far `AUTH_MAX` lies above its least value 3 (R8). -/
opaque authMaxAboveLeast : Nat
/-- How far `DRAIN_MAX` lies above its least value 1 (R8, D25). -/
opaque drainMaxAboveLeast : Nat
/-- Numerator of `TICK_HZ` less 1 (R8). No rule depends on the length of a tick (R11), so nothing reads it. -/
opaque tickHzNumAboveLeast : Nat
/-- Denominator of `TICK_HZ` less 1 (R8). -/
opaque tickHzDenAboveLeast : Nat

/-- The parameters of the block at hand: opaque, within the constraints of R8. -/
def params : Params :=
  { startMarker, stopMarker, settleTicks, defaultTimeoutTicks, authEn
    authLine := authText.take (authMaxAboveLeast + 3)
    authMax := authMaxAboveLeast + 3
    drainMax := drainMaxAboveLeast + 1 }

/-- What a RESET event leaves in `crc` (R271: unspecified). The argument counts the free values drawn. -/
opaque freeCrc : Nat → U16
/-- What a RESET event leaves in `f_len` (R271: unspecified). -/
opaque freeFLen : Nat → U15
/-- What a RESET event leaves in `f_cnt` (R271: unspecified). -/
opaque freeFCnt : Nat → U15
/-- What a RESET event leaves in `f_crc` (R271: unspecified). -/
opaque freeFCrc : Nat → U16
/-- What a RESET event leaves in `f_rxcrc` (R271: unspecified). -/
opaque freeFRxcrc : Nat → U16
/-- What a RESET event leaves in `timer` (R271: unspecified). -/
opaque freeTimer : Nat → U32
/-- What a RESET event leaves in `timer2` (R271: unspecified). -/
opaque freeTimer2 : Nat → U32
/-- What a RESET event leaves in `per_read` (R271: unspecified). -/
opaque freePerRead : Nat → U32
/-- What a RESET event leaves in `t_lat` (R271: unspecified). -/
opaque freeTLat : Nat → U32
/-- What a RESET event leaves in `d_len`, before it is cut to the register's range (R271: unspecified). -/
opaque freeDLen : Nat → Nat
/-- What a RESET event leaves in `TXBUF`, byte by byte from index 0 (R271: unspecified). -/
opaque freeTxbuf : Nat → List Byte
/-- What a RESET event leaves in `RXBUF`, byte by byte from index 0 (R271: unspecified). -/
opaque freeRxbuf : Nat → List Byte
/-- What a RESET event leaves in `DBUF`, byte by byte from index 0 (R271: unspecified). -/
opaque freeDbuf : Nat → List Byte
/-- The environment's choice (U8) when a failure and a pending byte could both be raised: `true` raises the
failure first. -/
opaque failureFirst : Nat → Bool
/-- The environment's choice (R238, U8) whether a latched write failure surfaces as RX_ERROR in a read wait. -/
opaque writeFailureSurfaces : Nat → Bool

end Config

end Sys2Proof
end

