-- ==== Sys2Proof/Machine/State.lean ====
section
/-! DEFINITION. The state of the block and of its transport (10_state.md), the reasons a step can stop, and the
state after reset (R271). Plain data throughout. -/

namespace Sys2Proof.Machine

/-- `f_state` (R23). `ACCEPT` and `REJECT` are verdicts, not states. -/
inductive FState where
  | seekStart
  | readLength
  | readPayload
  | readCrc
  | readStop
deriving DecidableEq, Repr

/-- `c_state` (R24); code 7 is never taken. -/
inductive CState where
  | disconnected
  | opening
  | settling
  | ready
  | txWait
  | awaiting
  | rawRead
deriving DecidableEq, Repr

/-- `c_op`, the operation in progress (R25). -/
inductive COp where
  | none
  | connect
  | sendCommand
  | readOne
  | flush
  | rawDrain
deriving DecidableEq, Repr

/-- `res_status` (R36). -/
inductive ResStatus where
  | ok
  | absent
deriving DecidableEq, Repr

/-- The cause codes (R231); code 7 is never written. -/
inductive Cause where
  | none
  | timeout
  | frameError
  | transportError
  | notConnected
  | illegalOp
  | incomplete
deriving DecidableEq, Repr

/-- A byte buffer: index and byte pairs, indices strictly rising, no entry equal to what an unlisted index reads as
(Memory.wf, Machine/Ops.lean). Each buffer is an address space of its own (R39, R55). -/
abbrev Memory := List Host.Cell

/-- The buffers a rule reads or writes by index (R39). `AUTH_LINE` is configuration. -/
inductive Buffer where
  | txbuf
  | rxbuf
  | dbuf
deriving DecidableEq, Repr

/-- The framer U3 (R145): its registers, flags and buffer. -/
structure Framer where
  /-- `f_state` (R23). -/
  state : FState
  /-- `f_len2` (R26). -/
  len2 : Bool
  /-- `f_crcidx` (R26). -/
  crcidx : Bool
  /-- `f_len` (R20). -/
  len : U15
  /-- `f_cnt` (R20). -/
  cnt : U15
  /-- `f_crc` (R20, R21). -/
  crc : U16
  /-- `f_rxcrc` (R20). -/
  rxcrc : U16
  /-- `RXBUF` (R39). -/
  rxbuf : Memory
deriving DecidableEq, Repr

/-- What one framer step returns (R146). -/
inductive Verdict where
  /-- No verdict yet. -/
  | pending
  /-- `ACCEPT(p)`. -/
  | accept (payload : List Byte)
  /-- `REJECT(fe_crc, fe_stop)`. -/
  | reject (feCrc feStop : Bool)
deriving DecidableEq, Repr

/-- The result record with CAUSE and FRAMEERR (R29, R30, R36). -/
structure Record where
  /-- `res_status`. -/
  status : ResStatus
  /-- CAUSE. -/
  cause : Cause
  /-- `fe_crc`. -/
  feCrc : Bool
  /-- `fe_stop`. -/
  feStop : Bool
  /-- `res_data`. -/
  data : List Byte
deriving DecidableEq, Repr

/-- The transport, environment state that shows through (R39, R40, R50 to R54, R238). -/
structure Transport where
  /-- TX: every byte appended on the connection, in order (R39, R52). -/
  tx : List Byte
  /-- The bytes appended to TX that no TX_DRAINED has reported sent (R40 (b)). -/
  undrained : List Byte
  /-- The bytes the peer has sent that the block has not taken, first to be taken first (R40 (a)). -/
  rxPending : List Byte
  /-- A read failure waits for the next read wait (R53, R238). -/
  rxFailed : Bool
  /-- A write failure waits for the next write wait (R53, R238). -/
  txFailed : Bool
deriving DecidableEq, Repr

/-- What a step puts out (R10). -/
inductive Output where
  /-- Bytes appended to TX. -/
  | tx (bytes : List Byte)
  /-- `open_req`. -/
  | openReq
  /-- `close_req`. -/
  | closeReq
  /-- The result record of an operation that ended. -/
  | result (r : Record)
deriving DecidableEq, Repr

/-- One input presented and not yet taken: the port and the bytes on it. -/
structure Presented where
  /-- The port. -/
  port : Port
  /-- The bytes, select first. Bytes after the input's last operand are not looked at. -/
  bytes : List Byte
deriving DecidableEq, Repr

/-- Why the machine stops with a fault. -/
inductive Fault where
  /-- An access to a buffer outside its index range (R55), raised by the buffer operations of Machine/Ops.lean. No
  such byte exists, and no rule asks for one from a state that meets the invariant (R44 (I3)). Safe. -/
  | bufferIndex (b : Buffer) (index : Nat)
deriving DecidableEq, Repr

/-- Why an input has no meaning. -/
inductive Refusal where
  /-- The instruction has no meaning in the model yet; raised by exec alone. Safe. -/
  | notModelled (mnemonic : String)
  /-- The bytes presented are no input of their port; raised by step. Safe. -/
  | undecodable (e : DecodeError)
  /-- A byte string over the port's operand limit (R101: it cannot be presented); raised by step. Safe. -/
  | unpresentable (i : Instr)
deriving DecidableEq, Repr

/-- The state of the machine: the block, its transport, and the inputs that wait. -/
structure State where
  /-- The configuration registers and parameters (R8, R31). -/
  cfg : Params
  /-- `crc`, the CRC register of U1 (R20). -/
  crc : U16
  /-- `TXBUF` (R39). -/
  txbuf : Memory
  /-- The framer U3. -/
  framer : Framer
  /-- `c_state` (R24). -/
  cState : CState
  /-- `c_op` (R25). -/
  cOp : COp
  /-- `connected` (R26). -/
  connected : Bool
  /-- `timer` (R20, R256). -/
  timer : U32
  /-- `timer2` (R20, R256). -/
  timer2 : U32
  /-- `per_read` (R20). -/
  perRead : U32
  /-- `t_lat` (R20). -/
  tLat : U32
  /-- `d_len` (R20): 0 to `DRAIN_MAX`. -/
  dLen : Nat
  /-- `DBUF` (R39). -/
  dbuf : Memory
  /-- The result record, CAUSE and FRAMEERR (R29, R30, R36). -/
  record : Record
  /-- The transport (R40). -/
  net : Transport
  /-- The host operations the busy port holds off, in the order presented (R181, U6). -/
  held : List Instr
  /-- The model's own: the inputs presented and not yet taken, in the environment's order (R10, R240). -/
  inputs : List Presented
  /-- The model's own: the Output list of the step just made (R10). -/
  out : List Output
  /-- The model's own: how many free values have been drawn. -/
  freeCount : Nat
deriving DecidableEq, Repr

/-- The result record after reset (R36, R270). -/
def Record.reset : Record := { status := .ok, cause := .none, feCrc := false, feStop := false, data := [] }

/-- No transport: empty streams, nothing pending, no failure (R54, R271). -/
def Transport.none : Transport :=
  { tx := [], undrained := [], rxPending := [], rxFailed := false, txFailed := false }

/-- The framer after reset. `f_state` and the flags are R23's and R26's; the rest is unspecified (R20, R39) and
0 by DESIGN CHOICE (notes/assumptions/5.md, 6.md). -/
def Framer.reset : Framer :=
  { state := .seekStart, len2 := false, crcidx := false, len := 0, cnt := 0, crc := 0, rxcrc := 0, rxbuf := [] }

/-- The machine right after reset (R271). The configuration is the opaque one of Config. The ten data registers
and the buffers, which the specification leaves unspecified, are 0 by DESIGN CHOICE (notes/assumptions/5.md, 6.md).
Nothing is presented and nothing is connected (R272). -/
def State.reset : State :=
  { cfg := Config.params
    crc := 0
    txbuf := []
    framer := Framer.reset
    cState := .disconnected
    cOp := .none
    connected := false
    timer := 0
    timer2 := 0
    perRead := 0
    tLat := 0
    dLen := 0
    dbuf := []
    record := Record.reset
    net := Transport.none
    held := []
    inputs := []
    out := []
    freeCount := 0 }

end Sys2Proof.Machine
end

