-- ==== Sys2Proof/Machine/Flags.lean ====
section
/-! DEFINITION. Flags, codes and read-only registers: what a verdict says (R156), what `Complete` writes to the
frame-error flags (R36), and the views STATUS and FRAMEERR (R28, R30). -/

namespace Sys2Proof.Machine

/-- `crc_ok` of R156: the received CRC field equals the running CRC; `CRC_XOROUT` is 0 (R9). -/
def crcOk (f : Framer) : Bool := f.rxcrc == (f.crc ^^^ 0x0000#16)

/-- `stop_ok` of R156. -/
def stopOk (cfg : Params) (b : Byte) : Bool := b == cfg.stopMarker

/-- The value `Complete` gives a frame-error flag: the REJECT's when the cause is `FRAME_ERROR`, else 0 (R36). -/
def frameFlag (cause : Cause) (flag : Bool) : Bool := cause == .frameError && flag

/-- The codes of `f_state` (R23). -/
def FState.code : FState → BitVec 3
  | .seekStart => 0
  | .readLength => 1
  | .readPayload => 2
  | .readCrc => 3
  | .readStop => 4

/-- The codes of `c_state` (R24). -/
def CState.code : CState → BitVec 3
  | .disconnected => 0
  | .opening => 1
  | .settling => 2
  | .ready => 3
  | .txWait => 4
  | .awaiting => 5
  | .rawRead => 6

/-- The codes of `c_op` (R25). -/
def COp.code : COp → BitVec 3
  | .none => 0
  | .connect => 1
  | .sendCommand => 2
  | .readOne => 3
  | .flush => 4
  | .rawDrain => 5

/-- The codes of `res_status` (R36). -/
def ResStatus.code : ResStatus → BitVec 1
  | .ok => 0
  | .absent => 1

/-- The cause codes, the value of CAUSE (R29, R231). -/
def Cause.code : Cause → BitVec 3
  | .none => 0
  | .timeout => 1
  | .frameError => 2
  | .transportError => 3
  | .notConnected => 4
  | .illegalOp => 5
  | .incomplete => 6

/-- The host port is ready exactly in `DISCONNECTED` and `READY` (R24, R181). -/
def hostReady (s : State) : Bool := s.cState == .disconnected || s.cState == .ready

/-- `busy` (R28). -/
def busy (s : State) : Bool := !hostReady s

/-- STATUS (R28): `f_state` in bits 7:5, `c_state` in 4:2, `busy` in 1, `connected` in 0. -/
def status (s : State) : BitVec 8 :=
  s.framer.state.code ++ s.cState.code ++ BitVec.ofBool (busy s) ++ BitVec.ofBool s.connected

/-- FRAMEERR (R30): `fe_stop` in bit 1, `fe_crc` in bit 0. -/
def frameErr (s : State) : BitVec 2 := BitVec.ofBool s.record.feStop ++ BitVec.ofBool s.record.feCrc

/-- CAUSE (R29): the code of the record's cause. -/
def causeRegister (s : State) : BitVec 3 := s.record.cause.code

/-- RX_BYTE and RX_ERROR are enabled exactly in the two read waits (R51, R53). -/
def readWait (s : State) : Bool := s.cState == .awaiting || s.cState == .rawRead

end Sys2Proof.Machine
end

