-- ==== Sys2Proof/Machine/Ops.lean ====
section
/-! DEFINITION. The named operations every meaning is written with: buffer access (R55), the step's outputs (R10),
`Complete` (R36), `TxAppend` (R52), the transport requests (R54), `FramerReset` (R147), Teardown, which is the
block's exception entry (R245), and the opening of a connection, which is the way back (R250). -/

namespace Sys2Proof.Machine

/-- The outcome of a step of this machine. -/
abbrev StepResult := Host.Outcome State Fault Refusal

/-! ## Buffers -/

/-- What an index that is not listed reads as. DESIGN CHOICE: the contents of a buffer nothing has written are
unspecified (R39), and no rule reads them (notes/assumptions/6.md). -/
def unwritten : Byte := 0#8

/-- `MemRead` without the range check (R55). -/
def memRead (m : Memory) (i : Nat) : Byte :=
  match m with
  | [] => unwritten
  | (k, v) :: rest => if k = i then v else memRead rest i

/-- A cell, unless it holds what an unlisted index reads as. -/
def cell (i : Nat) (v : Byte) : Memory := if v = unwritten then [] else [(i, v)]

/-- `MemWrite` without the range check (R55); it keeps the canonical form. -/
def memWrite (m : Memory) (i : Nat) (v : Byte) : Memory :=
  match m with
  | [] => cell i v
  | (k, w) :: rest =>
    if i < k then cell i v ++ (k, w) :: rest
    else if i = k then cell i v ++ rest
    else (k, w) :: memWrite rest i v

/-- The canonical form: indices strictly rising, no entry equal to what an unlisted index reads as. -/
def Memory.wf : Memory → Bool
  | [] => true
  | (k, v) :: rest => v != unwritten && rest.all (fun c => decide (k < c.1)) && Memory.wf rest

/-- Every listed index lies below `size`. -/
def Memory.within (size : Nat) (m : Memory) : Bool := m.all fun c => decide (c.1 < size)

/-- The number of bytes of a buffer (R39, R55). -/
def bufferSize (cfg : Params) : Buffer → Nat
  | .txbuf => 32767
  | .rxbuf => 32767
  | .dbuf => cfg.drainMax

/-- `MemWrite(B+i, 1, v)`: none when the index is outside the buffer (R55). -/
def bufWrite (size : Nat) (m : Memory) (i : Nat) (v : Byte) : Option Memory :=
  if i < size then some (memWrite m i v) else none

/-- The bytes at indices 0 to `n-1`, read one by one with `MemRead`. -/
def memBytes (m : Memory) (n : Nat) : List Byte := (List.range n).map (memRead m)

/-- The bytes `B[0 .. n)`: none when they reach outside the buffer (R55). -/
def bufBytes (size : Nat) (m : Memory) (n : Nat) : Option (List Byte) :=
  if n ≤ size then some (memBytes m n) else none

/-- A byte string stored from index `i` on, one `MemWrite` a byte; none when it reaches outside the buffer. -/
def bufLoad (size : Nat) (m : Memory) (i : Nat) : List Byte → Option Memory
  | [] => some m
  | b :: bs =>
    match bufWrite size m i b with
    | some m' => bufLoad size m' (i + 1) bs
    | none => none

/-- A buffer of `size` bytes that holds `bytes` from index 0 on, as far as they fit. -/
def memOfBytes (size : Nat) (bytes : List Byte) : Memory :=
  (bytes.take size).zipIdx.foldl (fun m c => memWrite m c.2 c.1) []

/-- Go on with a value, or stop: the index `i` lies outside the buffer `b`. -/
def orBounds (b : Buffer) (i : Nat) {α : Type} (x : Option α) (k : α → StepResult) : StepResult :=
  match x with
  | some a => k a
  | none => .fault (.bufferIndex b i)

/-! ## The step's outputs -/

/-- A step begins with nothing put out. -/
def State.begin (s : State) : State := { s with out := [] }

/-- Put one thing out. -/
def State.emit (s : State) (o : Output) : State := { s with out := s.out ++ [o] }

/-- The record `Complete` writes: `fe_crc` and `fe_stop` are 0 unless the cause is `FRAME_ERROR` (R36). -/
def completionRecord (st : ResStatus) (cause : Cause) (feCrc feStop : Bool) (data : List Byte) : Record :=
  { status := st, cause := cause, feCrc := frameFlag cause feCrc, feStop := frameFlag cause feStop, data := data }

/-- `Complete(status, cause, data)` (R36): write the record, end the operation, put the record out. -/
def State.complete (s : State) (st : ResStatus) (cause : Cause) (feCrc feStop : Bool) (data : List Byte) : State :=
  { s with
    record := completionRecord st cause feCrc feStop data
    cOp := .none
    out := s.out ++ [.result (completionRecord st cause feCrc feStop data)] }

/-- `Complete(OK, NONE, data)`. -/
def State.completeOk (s : State) (data : List Byte) : State := s.complete .ok .none false false data

/-- `Complete(ABSENT, cause, empty)` with no frame-error flags. -/
def State.completeAbsent (s : State) (cause : Cause) : State := s.complete .absent cause false false []

/-- `TxAppend(s)` (R52): the bytes join TX in order and are undrained until TX_DRAINED. -/
def State.txAppend (s : State) (bytes : List Byte) : State :=
  { s with
    net := { s.net with tx := s.net.tx ++ bytes, undrained := s.net.undrained ++ bytes }
    out := s.out ++ [.tx bytes] }

/-! ## The framer, the transport, the exception entry -/

/-- `FramerReset()` on the framer's registers (R147). -/
def Framer.restart (f : Framer) : Framer := { f with state := .seekStart, len2 := false, crcidx := false }

/-- `FramerReset()` (R147). -/
def State.framerReset (s : State) : State := { s with framer := s.framer.restart }

/-- What `close_req` leaves of the transport (R54): pending RX and undrained TX bytes are discarded, and with the
transport its latched failures. The bytes the connection appended stay on record until the next one opens. -/
def Transport.close (n : Transport) : Transport :=
  { n with undrained := [], rxPending := [], rxFailed := false, txFailed := false }

/-- `CloseTransport()` (R184). -/
def State.closeTransport (s : State) : State :=
  { s with
    net := s.net.close
    connected := false
    cState := .disconnected
    framer := s.framer.restart
    out := s.out ++ [.closeReq] }

/-- `Teardown(cause)`, the block's only trap (R245): the connection is dropped, the operation in progress completes
`ABSENT` with the cause, and control goes nowhere. -/
def State.teardown (s : State) (cause : Cause) (feCrc feStop : Bool) : State :=
  s.closeTransport.complete .absent cause feCrc feStop []

/-- What `open_req` starts from (R54): an empty TX sequence and a fresh RX sequence. A failure latched while
`DISCONNECTED` waits for the next wait on the transport (R53). -/
def Transport.fresh (n : Transport) : Transport := { n with tx := [], undrained := [], rxPending := [] }

/-- The way back from Teardown (R250): CONNECT asks for a new transport (R185). -/
def State.openTransport (s : State) : State :=
  { s with
    net := s.net.fresh
    connected := false
    cOp := .connect
    cState := .opening
    out := s.out ++ [.openReq] }

/-! ## The host port -/

/-- The port is busy: the operation is held off, not lost (R181, U6). -/
def State.hold (s : State) (i : Instr) : State := { s with held := s.held ++ [i] }

/-- Take a host operation when the port is ready, else hold it (R181). -/
def onHostPort (i : Instr) (s : State) (k : State → StepResult) : StepResult :=
  if hostReady s then k s.begin else .next (s.begin.hold i)

/-- Take an operation that needs the transport; while `connected = 0` it only reports that (R183). -/
def onConnection (i : Instr) (s : State) (k : State → StepResult) : StepResult :=
  onHostPort i s fun s => if s.connected then k s else .next (s.completeAbsent .notConnected)

/-- A reserved operation select (R102). -/
def refuseSelect (i : Instr) (s : State) : StepResult :=
  onHostPort i s fun s => .next (s.completeAbsent .illegalOp)

end Sys2Proof.Machine
end

