-- ==== Sys2Proof/Machine/Operands.lean ====
section
/-! DEFINITION. The operand forms: the timeout of a read (R101), the request payload (R95), a byte string copied to
`TXBUF` (R65), and the bit fields the framer writes (R151, R152, R154). -/

namespace Sys2Proof.Machine

/-- The tick count a read uses: `DEFAULT_TIMEOUT_TICKS` when `use_default` is 1 (R101). -/
def effectiveTimeout (s : State) (useDefault : Bool) (timeout : U32) : U32 :=
  if useDefault then s.cfg.defaultTimeoutTicks else timeout

/-- The request payload, `command ++ args` (R95, R193). -/
def requestPayload (cmd : Byte) (args : List Byte) : List Byte := cmd :: args

/-- The accepting step copies a payload operand into `TXBUF` from index 0 on (R39, R65). -/
def copyToTxbuf (payload : List Byte) (s : State) (k : State → StepResult) : StepResult :=
  orBounds .txbuf payload.length (bufLoad (bufferSize s.cfg .txbuf) s.txbuf 0 payload) fun m => k { s with txbuf := m }

/-- The two result bytes of a CRC operation: `crc[15:8]`, `crc[7:0]` (R37). -/
def crcField (v : U16) : List Byte := [v.extractLsb' 8 8, v.extractLsb' 0 8]

/-- `v[14:8] <- b[6:0]` (R151). -/
def setLenHigh (v : U15) (b : Byte) : U15 := b.extractLsb' 0 7 ++ v.extractLsb' 0 8

/-- `v[7:0] <- b` (R152). -/
def setLenLow (v : U15) (b : Byte) : U15 := v.extractLsb' 8 7 ++ b

/-- `v[15:8] <- b` (R154). -/
def setCrcHigh (v : U16) (b : Byte) : U16 := b ++ v.extractLsb' 0 8

/-- `v[7:0] <- b` (R154). -/
def setCrcLow (v : U16) (b : Byte) : U16 := v.extractLsb' 8 8 ++ b

end Sys2Proof.Machine
end

