-- ==== Sys2Proof/Machine/CrcUnit.lean ====
section
/-! DEFINITION. The CRC unit U1 (40_crc.md): the update function and CRC.INIT, CRC.BYTE, CRC16. -/

namespace Sys2Proof.Machine

/-- `CRC_POLY` (R7). -/
def crcPoly : U16 := 0x1021#16

/-- `CRC_INIT` (R7, C1). -/
def crcInitial : U16 := 0x0000#16

/-- One shift of R112: left by one, and the polynomial added when the bit shifted out was 1. -/
def crcShift (c : U16) : U16 := if c.msb then (c <<< 1) ^^^ crcPoly else c <<< 1

/-- `n` shifts of R112. -/
def crcShifts : Nat → U16 → U16
  | 0, c => c
  | n + 1, c => crcShifts n (crcShift c)

/-- `CrcByte(c, b)` (R112): the byte enters at the top of the register, then eight shifts. -/
def crcByte (c : U16) (b : Byte) : U16 := crcShifts 8 (c ^^^ (b.setWidth 16 <<< 8))

/-- The register after the bytes of `s`, first byte first (R114). -/
def crcBytes (c : U16) (s : List Byte) : U16 := s.foldl crcByte c

/-- `Crc16(s)` (R114); `CRC_XOROUT` is 0 (R9). -/
def crc16 (s : List Byte) : U16 := crcBytes crcInitial s ^^^ 0x0000#16

/-- CRC.INIT (R111). -/
def execCrcInit (s : State) : StepResult :=
  onHostPort .crcInit s fun s => .next (State.completeOk { s with crc := crcInitial } (crcField crcInitial))

/-- CRC.BYTE (R113): the result is the new value. -/
def execCrcByte (b : Byte) (s : State) : StepResult :=
  onHostPort (.crcByte b) s fun s => .next (State.completeOk { s with crc := crcByte s.crc b } (crcField (crcByte s.crc b)))

/-- CRC16 (R115). -/
def execCrc16 (data : List Byte) (s : State) : StepResult :=
  onHostPort (.crc16 data) s fun s =>
    .next (State.completeOk { s with crc := crcBytes crcInitial data } (crcField (crcBytes crcInitial data)))

end Sys2Proof.Machine
end

