-- ==== Sys2Proof/Machine/Encoder.lean ====
section
/-! DEFINITION. The frame encoder U2 (41_encoder.md): `Encode` and ENCODE. -/

namespace Sys2Proof.Machine

/-- The header of R131: `START_MARKER` and the length field of R85. -/
def frameHeader (cfg : Params) (n : Nat) : List Byte := cfg.startMarker :: lenField n

/-- The frame of R131 around a payload whose CRC is `c`. -/
def frameOf (cfg : Params) (p : List Byte) (c : U16) : List Byte :=
  frameHeader cfg p.length ++ p ++ crcField c ++ [cfg.stopMarker]

/-- `Encode(p)` as a function of the markers and the payload (R131). -/
def encodeFrame (cfg : Params) (p : List Byte) : List Byte := frameOf cfg p (crc16 p)

/-- `Encode(p)` as the block runs it (R131): the payload stands in `TXBUF`; `crc` runs over the bytes read from
there and keeps the CRC of the payload; `k` goes on with the frame. -/
def runEncode (p : List Byte) (s : State) (k : State → List Byte → StepResult) : StepResult :=
  orBounds .txbuf p.length (bufBytes (bufferSize s.cfg .txbuf) s.txbuf p.length) fun stored =>
    k { s with crc := crcBytes crcInitial stored } (frameOf s.cfg p (crcBytes crcInitial stored))

/-- ENCODE (R132): the frame goes to the host, nothing to TX. -/
def execEncode (payload : List Byte) (s : State) : StepResult :=
  onHostPort (.encode payload) s fun s =>
    copyToTxbuf payload s fun s => runEncode payload s fun s frame => .next (s.completeOk frame)

end Sys2Proof.Machine
end

