-- ==== Sys2Proof/Machine/Correlator.lean ====
section
/-! DEFINITION. The correlator U4 (43_correlator.md): the operations that own the connection. What events do to them
is Machine/Events.lean. -/

namespace Sys2Proof.Machine

/-- `AwaitFail(cause)` (R201): the framer restarts; SEND_COMMAND tears the connection down, READ_ONE keeps it. -/
def awaitFail (cause : Cause) (feCrc feStop : Bool) (s : State) : State :=
  if s.cOp = .sendCommand then s.framerReset.teardown cause feCrc feStop
  else State.complete { s.framerReset with cState := .ready } .absent cause feCrc feStop []

/-- `ArmAwait(T)` (R195): a zero timeout expires before any byte is taken. -/
def armAwait (t : U32) (s : State) : State :=
  if t = 0#32 then awaitFail .timeout false false { s with timer := t, cState := .awaiting }
  else { s with timer := t, cState := .awaiting }

/-- CONNECT (R185): a live connection is closed first, then a new transport is asked for. -/
def execConnect (s : State) : StepResult :=
  onHostPort .connect s fun s =>
    if s.cState = .ready then .next s.closeTransport.openTransport else .next s.openTransport

/-- DISCONNECT (R190): idempotent. -/
def execDisconnect (s : State) : StepResult :=
  onHostPort .disconnect s fun s =>
    if s.cState = .ready then .next (s.closeTransport.completeOk [])
    else .next (State.completeOk { s with connected := false } [])

/-- A request is copied, encoded, appended to TX, and the block waits for it to drain (R193). -/
def sendRequest (p : List Byte) (timeout : U32) (s : State) : StepResult :=
  copyToTxbuf p s fun s => runEncode p s fun s frame =>
    .next { s.txAppend frame with tLat := timeout, cOp := .sendCommand, cState := .txWait }

/-- SEND_COMMAND (R193). -/
def execSendCommand (cmd : Byte) (args : List Byte) (useDefault : Bool) (timeout : U32) (s : State) : StepResult :=
  onConnection (.sendCommand cmd args useDefault timeout) s fun s =>
    sendRequest (requestPayload cmd args) (effectiveTimeout s useDefault timeout) s

/-- READ_ONE (R200). -/
def execReadOne (useDefault : Bool) (timeout : U32) (s : State) : StepResult :=
  onConnection (.readOne useDefault timeout) s fun s =>
    .next (armAwait (effectiveTimeout s useDefault timeout) { s with cOp := .readOne })

/-- XMIT (R205): a frame is written and no response awaited. -/
def execXmit (payload : List Byte) (s : State) : StepResult :=
  onConnection (.xmit payload) s fun s =>
    copyToTxbuf payload s fun s => runEncode payload s fun s frame => .next ((s.txAppend frame).completeOk [])

/-- FLUSH (R207). -/
def execFlush (s : State) : StepResult :=
  onConnection .flush s fun s => .next { s with cOp := .flush, cState := .txWait }

/-- RAW_DRAIN (R210). -/
def execRawDrain (window perRead : U32) (s : State) : StepResult :=
  onConnection (.rawDrain window perRead) s fun s =>
    if window = 0#32 then
      .next (State.completeOk { s with dLen := 0, perRead := perRead, timer := window, timer2 := perRead, cState := .ready } [])
    else
      .next { s with
        dLen := 0, perRead := perRead, timer := window, timer2 := perRead, cOp := .rawDrain, cState := .rawRead }

end Sys2Proof.Machine
end

