-- ==== Sys2Proof/Machine/Commands.lean ====
section
/-! DEFINITION. The six command bytes (R95) as inputs: the request of that command, sent and awaited under the
default timeout as SEND_COMMAND does it (R106, R193; notes/assumptions/15.md). The block carries the byte and does
not interpret it (R96). -/

namespace Sys2Proof.Machine

/-- A request payload sent as SEND_COMMAND sends it, under `DEFAULT_TIMEOUT_TICKS`. -/
def sendDefault (i : Instr) (code : Byte) (args : List Byte) (s : State) : StepResult :=
  onConnection i s fun s => sendRequest (requestPayload code args) (effectiveTimeout s true 0) s

/-- FW_VERSION, code `0x00` (R95). -/
def execFwVersion (s : State) : StepResult := sendDefault .fwVersion 0x00 [] s

/-- GET_VALUES, code `0x04` (R95). -/
def execGetValues (args : List Byte) (s : State) : StepResult := sendDefault (.getValues args) 0x04 args s

/-- FORWARD_CAN, code `0x22`: target address, then the inner command (R95). -/
def execForwardCan (target : Byte) (inner : List Byte) (s : State) : StepResult :=
  sendDefault (.forwardCan target inner) 0x22 (target :: inner) s

/-- PING_CAN, code `0x3E` (R95). -/
def execPingCan (s : State) : StepResult := sendDefault .pingCan 0x3E [] s

/-- GET_CUSTOM_CONFIG, code `0x5D`, one argument byte (R95). -/
def execGetCustomConfig (arg : Byte) (s : State) : StepResult := sendDefault (.getCustomConfig arg) 0x5D [arg] s

/-- BMS_GET_VALUES, code `0x60` (R95). -/
def execBmsGetValues (s : State) : StepResult := sendDefault .bmsGetValues 0x60 [] s

end Sys2Proof.Machine
end

