-- ==== Sys2Proof/Machine/Reserved.lean ====
section
/-! DEFINITION. The four reserved operation selects (R102): each completes `ABSENT, ILLEGAL_OP`. -/

namespace Sys2Proof.Machine

/-- Select `0x0` (R102). -/
def execReserved0 (s : State) : StepResult := refuseSelect .reserved0 s

/-- Select `0xD` (R102). -/
def execReservedD (s : State) : StepResult := refuseSelect .reservedD s

/-- Select `0xE` (R102). -/
def execReservedE (s : State) : StepResult := refuseSelect .reservedE s

/-- Select `0xF` (R102). -/
def execReservedF (s : State) : StepResult := refuseSelect .reservedF s

end Sys2Proof.Machine
end

