-- ==== Sys2Proof/Machine/Framing.lean ====
section
/-! DEFINITION. The framer U3 (42_framer.md): the step of R150 to R156, and DECODE. -/

namespace Sys2Proof.Machine

/-- `AfterLength()` (R152). -/
def afterLength (f : Framer) : Framer :=
  if f.len = 0#15 then { f with cnt := 0#15, crc := crcInitial, crcidx := false, state := .readCrc }
  else { f with cnt := 0#15, crc := crcInitial, state := .readPayload }

/-- Step in `SEEK_START` (R150). -/
def stepSeekStart (cfg : Params) (f : Framer) (b : Byte) : Framer :=
  if b = cfg.startMarker then { f with state := .readLength, len2 := false } else f

/-- Step in `READ_LENGTH`: the first length byte (R151) or the second (R152). -/
def stepReadLength (f : Framer) (b : Byte) : Framer :=
  if f.len2 then afterLength { f with len := setLenLow f.len b, len2 := false }
  else if b.msb then { f with len := setLenHigh f.len b, len2 := true }
  else afterLength { f with len := b.setWidth 15 }

/-- Step in `READ_PAYLOAD` (R153); none when `f_cnt` points outside `RXBUF`, which no reachable state has. -/
def stepReadPayload (cfg : Params) (f : Framer) (b : Byte) : Option Framer :=
  match bufWrite (bufferSize cfg .rxbuf) f.rxbuf f.cnt.toNat b with
  | none => none
  | some m =>
    if f.cnt + 1 = f.len then
      some { f with rxbuf := m, crc := crcByte f.crc b, cnt := f.cnt + 1, crcidx := false, state := .readCrc }
    else some { f with rxbuf := m, crc := crcByte f.crc b, cnt := f.cnt + 1 }

/-- Step in `READ_CRC` (R154). -/
def stepReadCrc (f : Framer) (b : Byte) : Framer :=
  if f.crcidx then { f with rxcrc := setCrcLow f.rxcrc b, crcidx := false, state := .readStop }
  else { f with rxcrc := setCrcHigh f.rxcrc b, crcidx := true }

/-- The verdict of `READ_STOP` (R156): both checks at the stop byte. -/
def stopVerdict (cfg : Params) (f : Framer) (b : Byte) : Verdict :=
  if crcOk f && stopOk cfg b then .accept (memBytes f.rxbuf f.len.toNat) else .reject (!crcOk f) (!stopOk cfg b)

/-- `FramerStep(b)` (R146, R158); none for an access outside `RXBUF`. -/
def framerStep (cfg : Params) (f : Framer) (b : Byte) : Option (Framer × Verdict) :=
  match f.state with
  | .seekStart => some (stepSeekStart cfg f b, .pending)
  | .readLength => some (stepReadLength f b, .pending)
  | .readPayload => (stepReadPayload cfg f b).map fun f' => (f', .pending)
  | .readCrc => some (stepReadCrc f b, .pending)
  | .readStop => some ({ f with state := .seekStart }, stopVerdict cfg f b)

/-- What `Decode` answers (R165): the record's fields and the number of bytes consumed. -/
structure Decoded where
  /-- `OK` or `ABSENT`. -/
  status : ResStatus
  /-- `NONE`, `FRAME_ERROR` or `INCOMPLETE`. -/
  cause : Cause
  /-- `fe_crc` of a REJECT. -/
  feCrc : Bool
  /-- `fe_stop` of a REJECT. -/
  feStop : Bool
  /-- The payload of an ACCEPT. -/
  data : List Byte
  /-- How many bytes were consumed. -/
  used : Nat
deriving DecidableEq, Repr

/-- The loop of `Decode` after `used` bytes (R165). -/
def decodeLoop (cfg : Params) (f : Framer) (used : Nat) : List Byte → Option (Framer × Decoded)
  | [] => some (f.restart, ⟨.absent, .incomplete, false, false, [], used⟩)
  | b :: bs =>
    match framerStep cfg f b with
    | none => none
    | some (f', .pending) => decodeLoop cfg f' (used + 1) bs
    | some (f', .accept p) => some (f', ⟨.ok, .none, false, false, p, used + 1⟩)
    | some (f', .reject c t) => some (f', ⟨.absent, .frameError, c, t, [], used + 1⟩)

/-- `Decode(buf)` (R165): FramerReset, then the framer over the buffer up to the first verdict. -/
def decodeBuffer (cfg : Params) (f : Framer) (buf : List Byte) : Option (Framer × Decoded) :=
  decodeLoop cfg f.restart 0 buf

/-- DECODE (R165). -/
def execDecode (buf : List Byte) (s : State) : StepResult :=
  onHostPort (.decode buf) s fun s =>
    orBounds .rxbuf 32767 (decodeBuffer s.cfg s.framer buf) fun r =>
      .next (State.complete { s with framer := r.1 } r.2.status r.2.cause r.2.feCrc r.2.feStop r.2.data)

end Sys2Proof.Machine
end

