-- ==== Sys2Proof/Machine/Events.lean ====
section
/-! DEFINITION. The environment events (R103) in every state of the correlator. An event that is not enabled changes
nothing in the block (U5); what belongs to the transport waits there (R40, R53, R238; notes/assumptions/8.md, 10.md). -/

namespace Sys2Proof.Machine

/-! ## Bytes from the peer -/

/-- RX_BYTE in `AWAITING` (R197): the framer takes the byte; a verdict ends the read. -/
def awaitingByte (b : Byte) (s : State) : StepResult :=
  orBounds .rxbuf s.framer.cnt.toNat (framerStep s.cfg s.framer b) fun r =>
    match r.2 with
    | .pending => .next { s with framer := r.1 }
    | .accept p => .next (State.completeOk { s with framer := r.1, cState := .ready } p)
    | .reject c t => .next (awaitFail .frameError c t { s with framer := r.1 })

/-- The end of a drain with what it has (R212, R214): `DBUF[0 .. d_len)`. -/
def drainDone (s : State) : StepResult :=
  orBounds .dbuf s.dLen (bufBytes (bufferSize s.cfg .dbuf) s.dbuf s.dLen) fun bytes =>
    .next (State.completeOk { s with cState := .ready } bytes)

/-- RX_BYTE in `RAW_READ` (R212): the byte is stored raw; a full buffer ends the drain (R213). -/
def rawByte (b : Byte) (s : State) : StepResult :=
  orBounds .dbuf s.dLen (bufWrite (bufferSize s.cfg .dbuf) s.dbuf s.dLen b) fun m =>
    if s.dLen + 1 = s.cfg.drainMax then drainDone { s with dbuf := m, dLen := s.dLen + 1, timer2 := s.perRead }
    else .next { s with dbuf := m, dLen := s.dLen + 1, timer2 := s.perRead }

/-- The block takes a byte from the head of RX (R51). -/
def takeRx (b : Byte) (s : State) : StepResult :=
  match s.cState with
  | .awaiting => awaitingByte b s
  | .rawRead => rawByte b s
  | _ => .next s

/-- A byte arrives from the peer behind those that wait. In a read wait the block takes the head of RX (R51); in
every other state the byte waits in the transport (R40). -/
def receiveByte (b : Byte) (s : State) : StepResult :=
  if readWait s then
    match s.net.rxPending with
    | [] => takeRx b s
    | h :: t => takeRx h { s with net := { s.net with rxPending := t ++ [b] } }
  else .next { s with net := { s.net with rxPending := s.net.rxPending ++ [b] } }

/-- Several bytes arrive with no other input between them, each taken or kept as it comes. -/
def receiveBytes : List Byte → State → StepResult
  | [], s => .next s
  | b :: bs, s =>
    match receiveByte b s with
    | .next s' => receiveBytes bs s'
    | .fault f => .fault f
    | .refused r => .refused r

/-- RX_BYTE (R51, R197, R212). -/
def execRxByte (b : Byte) (s : State) : StepResult := receiveByte b s.begin

/-! ## Transport failure and answers -/

/-- RX_ERROR (R216): Teardown in a read wait; else the failure stays latched (R53, R238). -/
def execRxError (s : State) : StepResult :=
  if readWait s then .next (s.begin.teardown .transportError false false)
  else .next { s.begin with net := { s.net with rxFailed := true } }

/-- TX_ERROR (R216): Teardown in `TX_WAIT`; else the failure stays latched (R53, R238). -/
def execTxError (s : State) : StepResult :=
  if s.cState = .txWait then .next (s.begin.teardown .transportError false false)
  else .next { s.begin with net := { s.net with txFailed := true } }

/-- The write has drained: SEND_COMMAND goes on to its read (R195), FLUSH completes (R208). No other operation
waits in `TX_WAIT`. -/
def drained (s : State) : State :=
  match s.cOp with
  | .sendCommand => armAwait s.tLat { s with net := { s.net with undrained := [] } }
  | .flush => State.completeOk { s with net := { s.net with undrained := [] }, cState := .ready } []
  | _ => { s with net := { s.net with undrained := [] } }

/-- TX_DRAINED (R195, R208); outside `TX_WAIT` it is not reported (R238). -/
def execTxDrained (s : State) : StepResult :=
  if s.cState = .txWait then .next (drained s.begin) else .next s.begin

/-- OPEN_OK in `OPENING` (R186): the authentication line goes out raw, then the settle wait begins. -/
def opened (s : State) : State :=
  let s := if s.cfg.authEn then s.txAppend s.cfg.authLine else s
  if s.cfg.settleTicks = 0#32 then
    State.completeOk { s with timer := s.cfg.settleTicks, connected := true, cState := .ready } []
  else { s with timer := s.cfg.settleTicks, cState := .settling }

/-- OPEN_OK (R186); elsewhere it cannot happen (R238) and changes nothing. -/
def execOpenOk (s : State) : StepResult :=
  if s.cState = .opening then .next (opened s.begin) else .next s.begin

/-- OPEN_FAIL (R187): nothing was opened, so nothing is closed; elsewhere it changes nothing. -/
def execOpenFail (s : State) : StepResult :=
  if s.cState = .opening then .next (State.completeAbsent { s.begin with cState := .disconnected } .transportError)
  else .next s.begin

/-! ## Time -/

/-- A counter expires on the TICK that finds it at most 1 (R256). -/
def expires (t : U32) : Bool := t.toNat ≤ 1

/-- TICK in `SETTLING` (R188). -/
def settlingTick (s : State) : State :=
  if expires s.timer then State.completeOk { s with timer := 0, connected := true, cState := .ready } []
  else { s with timer := s.timer - 1 }

/-- TICK in `AWAITING` (R198). -/
def awaitingTick (s : State) : State :=
  if expires s.timer then awaitFail .timeout false false { s with timer := 0 } else { s with timer := s.timer - 1 }

/-- TICK in `RAW_READ` (R214). -/
def rawTick (s : State) : StepResult :=
  if expires s.timer then drainDone { s with timer := 0 }
  else if expires s.timer2 then
    if 0 < s.dLen then .next { s with timer := s.timer - 1, timer2 := s.perRead }
    else .next (State.completeOk { s with timer := s.timer - 1, timer2 := 0, cState := .ready } [])
  else .next { s with timer := s.timer - 1, timer2 := s.timer2 - 1 }

/-- TICK (R181): it counts in the three timed states and has no effect elsewhere. -/
def execTick (s : State) : StepResult :=
  match s.cState with
  | .settling => .next (settlingTick s.begin)
  | .awaiting => .next (awaitingTick s.begin)
  | .rawRead => rawTick s.begin
  | .disconnected | .opening | .ready | .txWait => .next s.begin

/-! ## Reset -/

/-- The registers and buffers R271 leaves unspecified take free values (notes/assumptions/7.md). -/
def State.unspecify (s : State) : State :=
  { s with
    crc := Config.freeCrc s.freeCount
    txbuf := memOfBytes (bufferSize s.cfg .txbuf) (Config.freeTxbuf s.freeCount)
    framer := { s.framer with
      len := Config.freeFLen s.freeCount
      cnt := Config.freeFCnt s.freeCount
      crc := Config.freeFCrc s.freeCount
      rxcrc := Config.freeFRxcrc s.freeCount
      rxbuf := memOfBytes (bufferSize s.cfg .rxbuf) (Config.freeRxbuf s.freeCount) }
    timer := Config.freeTimer s.freeCount
    timer2 := Config.freeTimer2 s.freeCount
    perRead := Config.freePerRead s.freeCount
    tLat := Config.freeTLat s.freeCount
    dLen := Config.freeDLen s.freeCount % (s.cfg.drainMax + 1)
    dbuf := memOfBytes (bufferSize s.cfg .dbuf) (Config.freeDbuf s.freeCount)
    freeCount := s.freeCount + 1 }

/-- RESET (R270, R271), in every state: the transport is dropped, the operation in progress is abandoned without a
result, and the record reads as after reset. -/
def execReset (s : State) : StepResult :=
  .next { s.unspecify with
    cState := .disconnected
    cOp := .none
    connected := false
    framer := s.unspecify.framer.restart
    record := Record.reset
    net := Transport.none
    out := if s.cState = .disconnected then [] else [.closeReq] }

end Sys2Proof.Machine
end

