-- ==== Sys2Proof/Machine/Wire.lean ====
section
/-! DEFINITION. The wire formats as inputs: a frame or a length field that the peer sends arrives on RX byte by byte
(R51, R57), and what the block makes of it is what it makes of those bytes (notes/assumptions/13.md, 14.md). -/

namespace Sys2Proof.Machine

/-- The bytes of a FRAME.S on the wire (R81): the length field is one byte. -/
def wireFrameS (cfg : Params) (payload : List Byte) (crc : U16) (stop : Byte) : List Byte :=
  cfg.startMarker :: BitVec.ofNat 8 payload.length :: (payload ++ crcField crc ++ [stop])

/-- The bytes of a FRAME.L on the wire (R82): the length field is two bytes, whatever the length (R88). -/
def wireFrameL (cfg : Params) (payload : List Byte) (crc : U16) (stop : Byte) : List Byte :=
  cfg.startMarker :: (lenFieldLong (BitVec.ofNat 15 payload.length) ++ payload ++ crcField crc ++ [stop])

/-- FRAME.S (R81): the peer sends the frame. -/
def execFrameS (payload : List Byte) (crc : U16) (stop : Byte) (s : State) : StepResult :=
  receiveBytes (wireFrameS s.cfg payload crc stop) s.begin

/-- FRAME.L (R82): the peer sends the frame. -/
def execFrameL (payload : List Byte) (crc : U16) (stop : Byte) (s : State) : StepResult :=
  receiveBytes (wireFrameL s.cfg payload crc stop) s.begin

/-- LEN.S (R85, R86): the one byte of a short length field arrives. -/
def execLenS (n : BitVec 7) (s : State) : StepResult := receiveBytes [0#1 ++ n] s.begin

/-- LEN.L (R85, R86): the two bytes of a long length field arrive, high byte first. -/
def execLenL (n : U15) (s : State) : StepResult := receiveBytes (lenFieldLong n) s.begin

end Sys2Proof.Machine
end

