-- ==== Sys2Proof/Machine/Dispatch.lean ====
section
/-! DEFINITION. The meaning of every input: one arm per constructor of Instr. -/

namespace Sys2Proof.Machine

def exec (i : Instr) (s : State) : Host.Outcome State Fault Refusal :=
  match i with
  | .crc16 data => Sys2Proof.Machine.execCrc16 data s
  | .encode payload => Sys2Proof.Machine.execEncode payload s
  | .decode buf => Sys2Proof.Machine.execDecode buf s
  | .connect => Sys2Proof.Machine.execConnect s
  | .disconnect => Sys2Proof.Machine.execDisconnect s
  | .sendCommand cmd args useDefault timeout => Sys2Proof.Machine.execSendCommand cmd args useDefault timeout s
  | .readOne useDefault timeout => Sys2Proof.Machine.execReadOne useDefault timeout s
  | .xmit payload => Sys2Proof.Machine.execXmit payload s
  | .flush => Sys2Proof.Machine.execFlush s
  | .rawDrain window perRead => Sys2Proof.Machine.execRawDrain window perRead s
  | .crcInit => Sys2Proof.Machine.execCrcInit s
  | .crcByte b => Sys2Proof.Machine.execCrcByte b s
  | .reserved0 => Sys2Proof.Machine.execReserved0 s
  | .reservedD => Sys2Proof.Machine.execReservedD s
  | .reservedE => Sys2Proof.Machine.execReservedE s
  | .reservedF => Sys2Proof.Machine.execReservedF s
  | .reset => Sys2Proof.Machine.execReset s
  | .rxByte b => Sys2Proof.Machine.execRxByte b s
  | .rxError => Sys2Proof.Machine.execRxError s
  | .txDrained => Sys2Proof.Machine.execTxDrained s
  | .txError => Sys2Proof.Machine.execTxError s
  | .openOk => Sys2Proof.Machine.execOpenOk s
  | .openFail => Sys2Proof.Machine.execOpenFail s
  | .tick => Sys2Proof.Machine.execTick s
  | .frameS payload crc stop => Sys2Proof.Machine.execFrameS payload crc stop s
  | .frameL payload crc stop => Sys2Proof.Machine.execFrameL payload crc stop s
  | .lenS n => Sys2Proof.Machine.execLenS n s
  | .lenL n => Sys2Proof.Machine.execLenL n s
  | .fwVersion => Sys2Proof.Machine.execFwVersion s
  | .getValues args => Sys2Proof.Machine.execGetValues args s
  | .forwardCan target inner => Sys2Proof.Machine.execForwardCan target inner s
  | .pingCan => Sys2Proof.Machine.execPingCan s
  | .getCustomConfig arg => Sys2Proof.Machine.execGetCustomConfig arg s
  | .bmsGetValues => Sys2Proof.Machine.execBmsGetValues s

end Sys2Proof.Machine
end

