-- ==== Sys2Proof/Machine/Fetch.lean ====
section
/-! DEFINITION. Which input a step takes (R10, R181, R240): an operation held off is accepted as soon as the port is
ready (U6), else the first input presented is decoded, and when nothing is presented the transport raises what it has
kept (R40, R53, R238; notes/assumptions/1.md, 9.md, 11.md). -/

namespace Sys2Proof.Machine

/-- What a step finds to do. -/
inductive Fetched where
  /-- An input, and the state with it taken from where it waited. -/
  | run (i : Instr) (s : State)
  /-- What is presented cannot be taken. -/
  | stop (r : Refusal)
  /-- Nothing is presented: the transport's turn. -/
  | idle
deriving DecidableEq, Repr

/-- The first input presented (R10). Its operands must be inside their limits (R101). -/
def fetchPresented (s : State) : Fetched :=
  match s.inputs with
  | [] => .idle
  | x :: rest =>
    match decode x.port x.bytes with
    | .error e => .stop (.undecodable e)
    | .ok (i, _) => if i.wf s.cfg.drainMax then .run i { s with inputs := rest } else .stop (.unpresentable i)

/-- The next input: an operation held off first, once the port is ready (R181, U6). -/
def fetch (s : State) : Fetched :=
  if hostReady s then
    match s.held with
    | i :: rest => .run i { s with held := rest }
    | [] => fetchPresented s
  else fetchPresented s

/-- The transport raises a pending byte (R40) and keeps the rest. -/
def raiseByte (s : State) : StepResult :=
  match s.net.rxPending with
  | [] => .next s
  | h :: t => takeRx h { s with net := { s.net with rxPending := t } }

/-- Whether a latched failure can surface in a read wait: a read failure always, a write failure when the
environment so chooses (R238, U8). -/
def readFailureDue (s : State) : Bool :=
  s.net.rxFailed || (s.net.txFailed && Config.writeFailureSurfaces s.freeCount)

/-- In a read wait with nothing presented, the transport raises what it has kept: pending bytes in order, or a
latched failure that surfaces. Where both could be raised the environment chooses (U8), so each such turn draws a
free value. -/
def readWaitIdle (s : State) : StepResult :=
  if s.net.rxFailed || s.net.txFailed then
    if readFailureDue s && (s.net.rxPending.isEmpty || Config.failureFirst s.freeCount) then
      .next (State.teardown { s with freeCount := s.freeCount + 1 } .transportError false false)
    else raiseByte { s with freeCount := s.freeCount + 1 }
  else raiseByte s

/-- In `TX_WAIT` with nothing presented, the transport raises a latched write failure (R53), or reports at once that
nothing is undrained (R207). -/
def txWaitIdle (s : State) : State :=
  if s.net.txFailed then s.teardown .transportError false false
  else if s.net.undrained.isEmpty then drained s
  else s

/-- A step with nothing presented and nothing held. -/
def transportTurn (s : State) : StepResult :=
  match s.cState with
  | .awaiting | .rawRead => readWaitIdle s.begin
  | .txWait => .next (txWaitIdle s.begin)
  | .disconnected | .opening | .settling | .ready => .next s.begin

end Sys2Proof.Machine
end

