-- ==== Sys2Proof/Machine/Step.lean ====
section
/-! DEFINITION. One step of the machine (R10), and the placing of a table word where step takes its next input. -/

namespace Sys2Proof.Machine

/-- One step: the input that `fetch` finds is run; with nothing to take it is the transport's turn. -/
def step (s : State) : Host.Outcome State Fault Refusal :=
  match fetch s with
  | .run i s' => exec i s'
  | .stop r => .refused r
  | .idle => transportTurn s

/-- `s` with a bare word of the opcode table presented first, so that the next step takes it. An operation held off
on a port that is ready would be taken before it (U6), so none is left. -/
def State.withFetchWord (s : State) (nbits w : Nat) : State :=
  { s with
    held := if hostReady s then [] else s.held
    inputs := ⟨tablePort nbits w, tableBytes nbits w⟩ :: s.inputs }

end Sys2Proof.Machine
end

