-- ==== Sys2Proof/Safety.lean ====
section
/-! DEFINITION. What holds of every reachable state (R44 and the rules it is derived from), and what a safe outcome
is (R237). -/

namespace Sys2Proof.Machine

/-- The framer stands idle: the conclusion of R44 (I1). -/
abbrev FramerIdle (f : Framer) : Prop := f.state = .seekStart ∧ f.len2 = false ∧ f.crcidx = false

/-- The framer holds payload bytes or their checks: `READ_PAYLOAD`, `READ_CRC` or `READ_STOP`. -/
abbrev PastLength (f : Framer) : Prop := f.state = .readPayload ∨ f.state = .readCrc ∨ f.state = .readStop

/-- What the framer keeps (R26, R44 (I3), R153, R158): each sub-flag only in its state; in `READ_PAYLOAD` bytes are
still missing and after it none are; `f_crc` is the CRC of the bytes stored; `RXBUF` is canonical and in range. -/
abbrev FramerInv (f : Framer) : Prop :=
  (f.len2 = true → f.state = .readLength) ∧
  (f.crcidx = true → f.state = .readCrc) ∧
  (f.state = .readPayload → f.cnt.toNat < f.len.toNat) ∧
  (f.state = .readCrc ∨ f.state = .readStop → f.cnt = f.len) ∧
  (PastLength f → f.crc = crc16 (memBytes f.rxbuf f.cnt.toNat)) ∧
  f.rxbuf.wf = true ∧ f.rxbuf.within 32767 = true

/-- Which operation can be in progress in which state (R24, R25, R221; R44 (I4) follows). -/
def opFits : CState → COp → Bool
  | .disconnected, .none | .ready, .none => true
  | .opening, .connect | .settling, .connect => true
  | .txWait, .sendCommand | .txWait, .flush => true
  | .awaiting, .sendCommand | .awaiting, .readOne => true
  | .rawRead, .rawDrain => true
  | _, _ => false

/-- The states in which `connected` is 1 (R24, R44 (I2)). -/
def isConnectedState : CState → Bool
  | .ready | .txWait | .awaiting | .rawRead => true
  | .disconnected | .opening | .settling => false

/-- What the correlator keeps: R44 (I2), the operation of the state, a running counter in the timed states (R256),
and room in `DBUF` while it collects (R213). -/
abbrev CorrelatorInv (s : State) : Prop :=
  s.connected = isConnectedState s.cState ∧
  opFits s.cState s.cOp = true ∧
  (s.cState = .settling ∨ s.cState = .awaiting ∨ s.cState = .rawRead → s.timer ≠ 0#32) ∧
  (s.cState = .rawRead → s.dLen < s.cfg.drainMax)

/-- What the result record keeps (R30, R36, R231): a frame-error flag exactly with `FRAME_ERROR`, `OK` exactly with
`NONE`, and no data with `ABSENT`. -/
abbrev RecordInv (r : Record) : Prop :=
  (r.cause = .frameError ↔ r.feCrc = true ∨ r.feStop = true) ∧
  (r.status = .ok ↔ r.cause = .none) ∧
  (r.status = .absent → r.data = [])

/-- What `TXBUF` and `DBUF` keep: canonical form, indices in range (R55). -/
abbrev BufferInv (s : State) : Prop :=
  s.txbuf.wf = true ∧ s.txbuf.within 32767 = true ∧ s.dbuf.wf = true ∧ s.dbuf.within s.cfg.drainMax = true

/-- The invariant of the machine: R44 with what its proof needs. Operations held off are inside the operand
limits (R101). -/
abbrev BlockInv (s : State) : Prop :=
  s.cfg.wf ∧
  (s.cState ≠ .awaiting → FramerIdle s.framer) ∧
  FramerInv s.framer ∧
  CorrelatorInv s ∧
  RecordInv s.record ∧
  BufferInv s ∧
  s.held.all (Instr.wf s.cfg.drainMax) = true

/-- A step that does not stop with a fault (R237). -/
def NoFault (r : StepResult) : Prop := ∀ f, r ≠ .fault f

/-! ## The words of the statements -/

/-- Several inputs taken one after the other (R10). -/
def execAll : List Instr → State → StepResult
  | [], s => .next s
  | i :: is, s =>
    match exec i s with
    | .next t => execAll is t
    | .fault f => .fault f
    | .refused r => .refused r

/-- `n` steps one after the other. -/
def stepTimes : Nat → State → StepResult
  | 0, s => .next s
  | n + 1, s =>
    match step s with
    | .next t => stepTimes n t
    | .fault f => .fault f
    | .refused r => .refused r

/-- The record of a success (R36, R231). -/
def okRecord (data : List Byte) : Record := ⟨.ok, .none, false, false, data⟩

/-- The record of a failure other than `FRAME_ERROR` (R36, R231). -/
def absentRecord (cause : Cause) : Record := ⟨.absent, cause, false, false, []⟩

/-- The record of a `FRAME_ERROR` with its two flags (R36, R231). -/
def frameErrorRecord (feCrc feStop : Bool) : Record := ⟨.absent, .frameError, feCrc, feStop, []⟩

/-- The state in which an operation has ended with a record and nothing else has changed (R36). -/
def endedWith (s : State) (r : Record) : State := { s with record := r, cOp := .none, out := [.result r] }

/-- The framer put back to `SEEK_START` (R147). -/
def idleFramer (f : Framer) : Framer := { f with state := .seekStart, len2 := false, crcidx := false }

/-- The state after a connection has been closed and the operation has ended with a record (R184, R245, R246). -/
def closedWith (s : State) (r : Record) : State :=
  { s with
    net := { s.net with undrained := [], rxPending := [], rxFailed := false, txFailed := false }
    connected := false
    cState := .disconnected
    cOp := .none
    framer := idleFramer s.framer
    record := r
    out := [.closeReq, .result r] }

/-- `Encode(p)` written out from R131. -/
def frameBytes (cfg : Params) (p : List Byte) : List Byte :=
  (if p.length < 128 then [cfg.startMarker, BitVec.ofNat 8 p.length]
   else [cfg.startMarker, 0x80#8 ||| BitVec.ofNat 8 (p.length >>> 8), BitVec.ofNat 8 (p.length % 256)]) ++
  p ++ [(crc16 p).extractLsb' 8 8, (crc16 p).extractLsb' 0 8] ++ [cfg.stopMarker]

/-- The state after a frame has been appended to TX (R52) and put out. -/
def sent (s : State) (frame : List Byte) : State :=
  { s with
    net := { s.net with tx := s.net.tx ++ frame, undrained := s.net.undrained ++ frame }
    out := [.tx frame] }

/-- `m` is `m₀` with `bytes` stored from index `i` on, and every other index as before. -/
def StoredAt (m₀ m : Memory) (i : Nat) (bytes : List Byte) : Prop :=
  (∀ j, j < bytes.length → memRead m (i + j) = bytes.getD j 0) ∧
  (∀ j, j < i ∨ i + bytes.length ≤ j → memRead m j = memRead m₀ j)

/-- `s` with bit `i` of its byte `k` flipped. -/
def flipBit (s : List Byte) (k i : Nat) : List Byte := s.set k (s.getD k 0 ^^^ (1#8 <<< i))

/-- The inputs that come on the host port: the operations, the reserved selects and the command requests. -/
def isHostOperation : Instr → Bool
  | .crc16 _ | .encode _ | .decode _ | .connect | .disconnect | .sendCommand _ _ _ _ | .readOne _ _ | .xmit _ => true
  | .flush | .rawDrain _ _ | .crcInit | .crcByte _ | .reserved0 | .reservedD | .reservedE | .reservedF => true
  | .fwVersion | .getValues _ | .forwardCan _ _ | .pingCan | .getCustomConfig _ | .bmsGetValues => true
  | .reset | .rxByte _ | .rxError | .txDrained | .txError | .openOk | .openFail | .tick => false
  | .frameS _ _ _ | .frameL _ _ _ | .lenS _ | .lenL _ => false

/-- The request payload and the ticks of the inputs that send a request and await the answer: SEND_COMMAND (R193)
and the six commands (R95). -/
def requestOf (cfg : Params) : Instr → Option (List Byte × U32)
  | .sendCommand cmd args useDefault timeout =>
    some (cmd :: args, if useDefault then cfg.defaultTimeoutTicks else timeout)
  | .fwVersion => some ([0x00], cfg.defaultTimeoutTicks)
  | .getValues args => some (0x04 :: args, cfg.defaultTimeoutTicks)
  | .forwardCan target inner => some (0x22 :: target :: inner, cfg.defaultTimeoutTicks)
  | .pingCan => some ([0x3E], cfg.defaultTimeoutTicks)
  | .getCustomConfig arg => some ([0x5D, arg], cfg.defaultTimeoutTicks)
  | .bmsGetValues => some ([0x60], cfg.defaultTimeoutTicks)
  | _ => none

/-- The inputs that need the transport (R183), the command requests among them. -/
def needsConnection : Instr → Bool
  | .sendCommand _ _ _ _ | .readOne _ _ | .xmit _ | .flush | .rawDrain _ _ => true
  | .fwVersion | .getValues _ | .forwardCan _ _ | .pingCan | .getCustomConfig _ | .bmsGetValues => true
  | _ => false

/-- The inputs that write `crc` and `TXBUF` or `crc` alone (R20, R286), and RESET, after which they are unspecified. -/
def writesCrc : Instr → Bool
  | .crcInit | .crcByte _ | .crc16 _ | .encode _ | .xmit _ | .sendCommand _ _ _ _ | .reset => true
  | .fwVersion | .getValues _ | .forwardCan _ _ | .pingCan | .getCustomConfig _ | .bmsGetValues => true
  | _ => false

/-- The bytes a wire row puts on RX (R81, R82, R85). -/
def wireBytes (cfg : Params) : Instr → Option (List Byte)
  | .frameS payload crc stop => some (wireFrameS cfg payload crc stop)
  | .frameL payload crc stop => some (wireFrameL cfg payload crc stop)
  | .lenS n => some [0#1 ++ n]
  | .lenL n => some [1#1 ++ n.extractLsb' 8 7, n.extractLsb' 0 8]
  | _ => none

/-- The moves of `c_state` in the table of R221, staying put included. -/
def cMove : CState → CState → Bool
  | .disconnected, .disconnected | .disconnected, .opening => true
  | .opening, .opening | .opening, .settling | .opening, .ready | .opening, .disconnected => true
  | .settling, .settling | .settling, .ready | .settling, .disconnected => true
  | .ready, .ready | .ready, .opening | .ready, .disconnected | .ready, .txWait | .ready, .awaiting => true
  | .ready, .rawRead => true
  | .txWait, .txWait | .txWait, .ready | .txWait, .awaiting | .txWait, .disconnected => true
  | .awaiting, .awaiting | .awaiting, .ready | .awaiting, .disconnected => true
  | .rawRead, .rawRead | .rawRead, .ready | .rawRead, .disconnected => true
  | _, _ => false

end Sys2Proof.Machine
end

