-- ==== Sys2Proof/Certificates/Slice0/Obligations.lean ====
section
/-! DEFINITION. The statements for the provers. Each says in its docstring which rule of spec/ it formalises, or that
it rests on a choice of the model's and which log entry says so. -/

open Sys2Proof Sys2Proof.Machine

/-! ## The CRC unit -/

/-- R111: CRC.INIT sets `crc` to 0 and completes `OK` with two zero bytes; nothing else changes. -/
def Obligations.CrcInitSetsZero : Prop :=
  encode .crcInit = (.host, [0xB#8]) ∧
  ∀ s : State, hostReady s = true →
    exec .crcInit s = .next { endedWith s (okRecord [0x00#8, 0x00#8]) with crc := 0x0000#16 }

/-- R113: CRC.BYTE replaces `crc` by `CrcByte(crc, b)` and completes `OK` with the new value, high byte first;
nothing else changes. The example of the rule is the second clause. -/
def Obligations.CrcByteUpdates : Prop :=
  (∀ (s : State) (b : Byte), hostReady s = true →
    exec (.crcByte b) s = .next { endedWith s (okRecord
      [(crcByte s.crc b).extractLsb' 8 8, (crcByte s.crc b).extractLsb' 0 8]) with crc := crcByte s.crc b }) ∧
  (∀ s : State, hostReady s = true → s.crc = 0x0000#16 → ∃ t, exec (.crcByte 0x31#8) s = .next t ∧ t.crc = 0x2672#16)

/-- R115: CRC16 equals CRC.INIT followed by one CRC.BYTE a byte, and leaves `crc = Crc16(data)` with its two bytes as
the result; zero bytes give 0, and "123456789" gives 0x31C3. -/
def Obligations.Crc16IsInitThenBytes : Prop :=
  (∀ data : List Byte, (encode (.crc16 data)).2.head? = some 0x1#8) ∧
  (∀ (s : State) (data : List Byte), hostReady s = true →
    exec (.crc16 data) s = .next { endedWith s (okRecord
      [(crc16 data).extractLsb' 8 8, (crc16 data).extractLsb' 0 8]) with crc := crc16 data } ∧
    execAll (.crcInit :: data.map .crcByte) s = exec (.crc16 data) s) ∧
  (∀ n : Nat, crc16 (List.replicate n 0x00#8) = 0x0000#16) ∧
  crc16 [0x31#8, 0x32#8, 0x33#8, 0x34#8, 0x35#8, 0x36#8, 0x37#8, 0x38#8, 0x39#8] = 0x31C3#16

/-- R116 (a) to (d): the empty string, leading zero bytes, linearity, the residue. -/
def Obligations.CrcAlgebra : Prop :=
  crc16 [] = 0x0000#16 ∧
  (∀ s : List Byte, crc16 (0x00#8 :: s) = crc16 s) ∧
  (∀ s t : List Byte, s.length = t.length → crc16 (List.zipWith (· ^^^ ·) s t) = crc16 s ^^^ crc16 t) ∧
  (∀ s : List Byte, crc16 (s ++ [(crc16 s).extractLsb' 8 8, (crc16 s).extractLsb' 0 8]) = 0x0000#16)

/-- R116 (e): two strings that differ in exactly one bit have different CRCs. -/
def Obligations.CrcDetectsEverySingleBit : Prop :=
  ∀ (s : List Byte) (k i : Nat), k < s.length → i < 8 → crc16 (flipBit s k i) ≠ crc16 s

/-- R117: the table form of `CrcByte`, and the table entries the rule lists. -/
def Obligations.CrcTableForm : Prop :=
  (∀ (c : U16) (b : Byte), crcByte c b = (c <<< 8) ^^^ crcByte 0x0000#16 ((c >>> 8).setWidth 8 ^^^ b)) ∧
  (List.range 16).map (fun i => crcByte 0x0000#16 (BitVec.ofNat 8 i)) =
    [0x0000#16, 0x1021#16, 0x2042#16, 0x3063#16, 0x4084#16, 0x50A5#16, 0x60C6#16, 0x70E7#16,
     0x8108#16, 0x9129#16, 0xA14A#16, 0xB16B#16, 0xC18C#16, 0xD1AD#16, 0xE1CE#16, 0xF1EF#16] ∧
  crcByte 0x0000#16 128#8 = 0x9188#16 ∧ crcByte 0x0000#16 255#8 = 0x1EF0#16

/-! ## The encoder -/

/-- R131, R132: ENCODE puts the payload in `TXBUF`, leaves `crc = Crc16(payload)`, and completes `OK` with the frame,
of N + 5 bytes below 128 and N + 6 from there on; it never fails, and nothing else changes. -/
def Obligations.EncodeReturnsTheFrame : Prop :=
  (∀ p : List Byte, (encode (.encode p)).2.head? = some 0x2#8) ∧
  ∀ (s : State) (p : List Byte), hostReady s = true → s.txbuf.wf = true → p.length ≤ 32767 →
    (∃ m, StoredAt s.txbuf m 0 p ∧
      exec (.encode p) s =
        .next { endedWith s (okRecord (frameBytes s.cfg p)) with txbuf := m, crc := crc16 p }) ∧
    (frameBytes s.cfg p).length = if p.length < 128 then p.length + 5 else p.length + 6

/-- The frame the encoder makes is the frame format's (R81, R82): FRAME.S below 128 payload bytes and FRAME.L from
there on, with the payload's CRC and the stop marker. -/
def Obligations.EncodedFrameHasTheFormat : Prop :=
  ∀ (cfg : Params) (p : List Byte), p.length ≤ 32767 →
    encodeFrame cfg p =
      if p.length < 128 then wireFrameS cfg p (crc16 p) cfg.stopMarker else wireFrameL cfg p (crc16 p) cfg.stopMarker

/-- R85 and R86: the length field of N reads back as N, in the short form exactly below 128; and every first byte,
with every second one, reads as the length R86 gives it. -/
def Obligations.LengthFieldReadsBack : Prop :=
  (∀ n : Nat, n ≤ 32767 → decode .length (lenField n) =
    .ok (if n < 128 then .lenS (BitVec.ofNat 7 n) else .lenL (BitVec.ofNat 15 n), [])) ∧
  (∀ b0 : Byte, b0.msb = false → decode .length [b0] = .ok (.lenS (b0.setWidth 7), [])) ∧
  (∀ b0 b1 : Byte, b0.msb = true → decode .length [b0, b1] =
    .ok (.lenL (((b0 &&& 0x7F#8).setWidth 15 <<< 8) ||| b1.setWidth 15), []))

/-! ## The framer -/

/-- R158: the table of the framer's step, row by row. -/
def Obligations.FramerStepTable : Prop :=
  ∀ (cfg : Params) (f : Framer) (b : Byte),
    (f.state = .seekStart → b ≠ cfg.startMarker → framerStep cfg f b = some (f, .pending)) ∧
    (f.state = .seekStart → b = cfg.startMarker →
      framerStep cfg f b = some ({ f with state := .readLength, len2 := false }, .pending)) ∧
    (f.state = .readLength → f.len2 = false → b.msb = false → b ≠ 0#8 → framerStep cfg f b =
      some ({ f with len := b.setWidth 15, cnt := 0, crc := 0, state := .readPayload }, .pending)) ∧
    (f.state = .readLength → f.len2 = false → b = 0#8 → framerStep cfg f b =
      some ({ f with len := 0, cnt := 0, crc := 0, crcidx := false, state := .readCrc }, .pending)) ∧
    (f.state = .readLength → f.len2 = false → b.msb = true →
      ∃ n : U15, n.extractLsb' 8 7 = b.extractLsb' 0 7 ∧ n.extractLsb' 0 8 = f.len.extractLsb' 0 8 ∧
        framerStep cfg f b = some ({ f with len := n, len2 := true }, .pending)) ∧
    (f.state = .readLength → f.len2 = true →
      ∃ n : U15, n.extractLsb' 8 7 = f.len.extractLsb' 8 7 ∧ n.extractLsb' 0 8 = b ∧
        (n ≠ 0 → framerStep cfg f b = some
          ({ f with len := n, len2 := false, cnt := 0, crc := 0, state := .readPayload }, .pending)) ∧
        (n = 0 → framerStep cfg f b = some
          ({ f with len := n, len2 := false, cnt := 0, crc := 0, crcidx := false, state := .readCrc }, .pending))) ∧
    (f.state = .readPayload → f.cnt.toNat < f.len.toNat → f.rxbuf.wf = true →
      ∃ m, StoredAt f.rxbuf m f.cnt.toNat [b] ∧
        (f.cnt.toNat + 1 < f.len.toNat → framerStep cfg f b =
          some ({ f with rxbuf := m, crc := crcByte f.crc b, cnt := f.cnt + 1 }, .pending)) ∧
        (f.cnt.toNat + 1 = f.len.toNat → framerStep cfg f b =
          some ({ f with rxbuf := m, crc := crcByte f.crc b, cnt := f.cnt + 1, crcidx := false, state := .readCrc },
            .pending))) ∧
    (f.state = .readCrc → f.crcidx = false →
      ∃ c : U16, c.extractLsb' 8 8 = b ∧ c.extractLsb' 0 8 = f.rxcrc.extractLsb' 0 8 ∧
        framerStep cfg f b = some ({ f with rxcrc := c, crcidx := true }, .pending)) ∧
    (f.state = .readCrc → f.crcidx = true →
      ∃ c : U16, c.extractLsb' 8 8 = f.rxcrc.extractLsb' 8 8 ∧ c.extractLsb' 0 8 = b ∧
        framerStep cfg f b = some ({ f with rxcrc := c, crcidx := false, state := .readStop }, .pending)) ∧
    (f.state = .readStop → f.rxcrc = f.crc ∧ b = cfg.stopMarker → framerStep cfg f b =
      some ({ f with state := .seekStart }, .accept (memBytes f.rxbuf f.len.toNat))) ∧
    (f.state = .readStop → ¬(f.rxcrc = f.crc ∧ b = cfg.stopMarker) → framerStep cfg f b =
      some ({ f with state := .seekStart }, .reject (decide (f.rxcrc ≠ f.crc)) (decide (b ≠ cfg.stopMarker))))

/-- R133: for every payload of 0 to 32767 bytes and all markers, `Decode(Encode(p))` is `OK` with payload `p`, having
consumed every byte of the frame. -/
def Obligations.DecodeOfEncodeIsThePayload : Prop :=
  ∀ (cfg : Params) (f : Framer) (p : List Byte), f.rxbuf.wf = true → p.length ≤ 32767 →
    ∃ f', FramerIdle f' ∧
      decodeBuffer cfg f (frameBytes cfg p) = some (f', ⟨.ok, .none, false, false, p, (frameBytes cfg p).length⟩)

/-- R162, and the corner case of R165: behind garbage without `START_MARKER` the frame is found, exactly the garbage
and the frame are consumed, and what follows the frame is not looked at. -/
def Obligations.ResynchronizesAfterStartFreeGarbage : Prop :=
  ∀ (cfg : Params) (f : Framer) (g p t : List Byte), f.rxbuf.wf = true → p.length ≤ 32767 →
    (∀ b ∈ g, b ≠ cfg.startMarker) →
    ∃ f', FramerIdle f' ∧ decodeBuffer cfg f (g ++ frameBytes cfg p ++ t) =
      some (f', ⟨.ok, .none, false, false, p, g.length + (frameBytes cfg p).length⟩)

/-- R166: one flipped bit in the payload bytes or the two CRC bytes of a frame makes `Decode` answer
`ABSENT, FRAME_ERROR` with `fe_crc = 1`, `fe_stop = 0`. -/
def Obligations.DecodeCatchesEverySingleBit : Prop :=
  ∀ (cfg : Params) (f : Framer) (p : List Byte) (k i : Nat), f.rxbuf.wf = true → p.length ≤ 32767 → i < 8 →
    (if p.length < 128 then 2 else 3) ≤ k → k < (if p.length < 128 then 2 else 3) + p.length + 2 →
    ∃ f' used, FramerIdle f' ∧ decodeBuffer cfg f (flipBit (frameBytes cfg p) k i) =
      some (f', ⟨.absent, .frameError, true, false, [], used⟩)

/-- R165: DECODE completes in its own step on every buffer: `OK` with a payload, `FRAME_ERROR` with a flag set, or
`INCOMPLETE` when the whole buffer gave no verdict. The framer is idle afterwards and, `crc` among the rest, nothing
but the framer's registers and `RXBUF` changes. -/
def Obligations.DecodeCompletesOnEveryBuffer : Prop :=
  ∀ (s : State) (buf : List Byte), hostReady s = true →
    ∃ f' d, FramerIdle f' ∧ decodeBuffer s.cfg s.framer buf = some (f', d) ∧
      exec (.decode buf) s = .next { endedWith s ⟨d.status, d.cause, d.feCrc, d.feStop, d.data⟩ with framer := f' } ∧
      ((d.status = .ok ∧ d.cause = .none ∧ d.feCrc = false ∧ d.feStop = false ∧ d.used ≤ buf.length) ∨
       (d.status = .absent ∧ d.cause = .frameError ∧ (d.feCrc = true ∨ d.feStop = true) ∧ d.data = [] ∧
          d.used ≤ buf.length) ∨
       (d.status = .absent ∧ d.cause = .incomplete ∧ d.feCrc = false ∧ d.feStop = false ∧ d.data = [] ∧
          d.used = buf.length))

/-! ## The correlator: connection -/

/-- R185: CONNECT in `DISCONNECTED` asks for a transport; in `READY` it closes the old one first. The streams of the
new connection start empty (R54). -/
def Obligations.ConnectOpensATransport : Prop :=
  encode .connect = (.host, [0x4#8]) ∧
  (∀ s : State, s.cState = .disconnected → exec .connect s = .next { s with
    net := { s.net with tx := [], undrained := [], rxPending := [] }
    connected := false, cOp := .connect, cState := .opening, out := [.openReq] }) ∧
  (∀ s : State, s.cState = .ready → exec .connect s = .next { s with
    net := { tx := [], undrained := [], rxPending := [], rxFailed := false, txFailed := false }
    connected := false, cOp := .connect, cState := .opening, framer := idleFramer s.framer
    out := [.closeReq, .openReq] })

/-- R190: DISCONNECT closes the transport in `READY`, does nothing to it in `DISCONNECTED`, completes `OK` both
times, and a second one changes nothing but what is put out. While an operation is in progress it cancels nothing. -/
def Obligations.DisconnectIsIdempotent : Prop :=
  encode .disconnect = (.host, [0x5#8]) ∧
  (∀ s : State, s.cState = .ready → exec .disconnect s = .next (closedWith s (okRecord []))) ∧
  (∀ s : State, s.cState = .disconnected →
    exec .disconnect s = .next { endedWith s (okRecord []) with connected := false }) ∧
  (∀ s t : State, hostReady s = true → exec .disconnect s = .next t →
    exec .disconnect t = .next { t with out := [.result (okRecord [])] }) ∧
  (∀ s : State, hostReady s = false → ∃ t, exec .disconnect s = .next t ∧ t.cState = s.cState ∧ t.cOp = s.cOp ∧
    t.connected = s.connected ∧ t.record = s.record ∧ t.net = s.net ∧ t.out = [])

/-- R186 with no settle wait: the line goes out raw if `AUTH_EN`, and CONNECT completes at once. -/
def Obligations.OpenOkWithoutSettleCompletes : Prop :=
  ∀ s : State, s.cState = .opening → s.cfg.settleTicks = 0#32 →
    (s.cfg.authEn = true → exec .openOk s = .next { s with
      net := { s.net with tx := s.net.tx ++ s.cfg.authLine, undrained := s.net.undrained ++ s.cfg.authLine }
      timer := 0#32, connected := true, cState := .ready, cOp := .none, record := okRecord []
      out := [.tx s.cfg.authLine, .result (okRecord [])] }) ∧
    (s.cfg.authEn = false → exec .openOk s = .next { s with
      timer := 0#32, connected := true, cState := .ready, cOp := .none, record := okRecord []
      out := [.result (okRecord [])] })

/-- R186 and R188: OPEN_OK puts the line out if `AUTH_EN` and loads the settle wait (`k = 0`); the block then settles
for exactly `SETTLE_TICKS` TICKs; CONNECT completes at the last of them and not before, and only then is `connected`
1. -/
def Obligations.SettleWaitLastsItsTicks : Prop :=
  ∀ (s : State) (k : Nat), s.cState = .opening → s.cfg.settleTicks ≠ 0#32 → k ≤ s.cfg.settleTicks.toNat →
    ∃ n : Transport,
      (s.cfg.authEn = true → n = { s.net with
        tx := s.net.tx ++ s.cfg.authLine, undrained := s.net.undrained ++ s.cfg.authLine }) ∧
      (s.cfg.authEn = false → n = s.net) ∧
      (k < s.cfg.settleTicks.toNat → execAll (.openOk :: List.replicate k .tick) s = .next { s with
        net := n, timer := s.cfg.settleTicks - BitVec.ofNat 32 k, cState := .settling
        out := if k = 0 ∧ s.cfg.authEn = true then [.tx s.cfg.authLine] else [] }) ∧
      (k = s.cfg.settleTicks.toNat → execAll (.openOk :: List.replicate k .tick) s = .next { s with
        net := n, timer := 0#32, cState := .ready, connected := true, cOp := .none, record := okRecord []
        out := [.result (okRecord [])] })

/-- R187: OPEN_FAIL ends CONNECT `ABSENT, TRANSPORT_ERROR` with no `close_req`. -/
def Obligations.OpenFailReportsTransportError : Prop :=
  ∀ s : State, s.cState = .opening →
    exec .openFail s = .next { endedWith s (absentRecord .transportError) with cState := .disconnected }

/-! ## The correlator: requests and reads -/

/-- R193 for SEND_COMMAND, and the same for the six commands of R95 (that a command row is this request under the
default timeout is the model's choice, notes/assumptions/15.md): the request payload goes to `TXBUF`, its frame to TX
in one run, the timeout is latched, the block waits for the drain; nothing else changes. -/
def Obligations.RequestsAreSentAsFrames : Prop :=
  ∀ (s : State) (i : Instr) (p : List Byte) (t : U32), s.cState = .ready → s.connected = true → s.txbuf.wf = true →
    i.wf s.cfg.drainMax = true → requestOf s.cfg i = some (p, t) →
    ∃ m, StoredAt s.txbuf m 0 p ∧ exec i s = .next { sent s (frameBytes s.cfg p) with
      txbuf := m, crc := crc16 p, tLat := t, cOp := .sendCommand, cState := .txWait }

/-- R195 and R208: when the write has drained, SEND_COMMAND arms its deadline and reads, or fails at once with a
Teardown when the timeout is 0; FLUSH completes. -/
def Obligations.DrainContinuesTheOperation : Prop :=
  (∀ s : State, s.cState = .txWait → s.cOp = .sendCommand → s.tLat ≠ 0#32 → exec .txDrained s = .next { s with
    net := { s.net with undrained := [] }, timer := s.tLat, cState := .awaiting, out := [] }) ∧
  (∀ s : State, s.cState = .txWait → s.cOp = .sendCommand → s.tLat = 0#32 →
    exec .txDrained s = .next (closedWith { s with timer := 0#32 } (absentRecord .timeout))) ∧
  (∀ s : State, s.cState = .txWait → s.cOp = .flush → exec .txDrained s = .next
    { endedWith s (okRecord []) with net := { s.net with undrained := [] }, cState := .ready })

/-- R197: in `AWAITING` with nothing pending the framer takes the byte: no verdict changes only the framer, ACCEPT
completes `OK` with the payload, REJECT ends SEND_COMMAND with a Teardown and any other read without one. -/
def Obligations.AwaitingTakesTheByte : Prop :=
  ∀ (s : State) (b : Byte), s.cState = .awaiting → s.net.rxPending = [] → FramerInv s.framer →
    ∃ f' v, framerStep s.cfg s.framer b = some (f', v) ∧
      (v = .pending → exec (.rxByte b) s = .next { s with framer := f', out := [] }) ∧
      (∀ p, v = .accept p → exec (.rxByte b) s = .next
        { endedWith s (okRecord p) with framer := f', cState := .ready }) ∧
      (∀ c t, v = .reject c t → s.cOp = .sendCommand → exec (.rxByte b) s = .next
        (closedWith { s with framer := f' } (frameErrorRecord c t))) ∧
      (∀ c t, v = .reject c t → s.cOp ≠ .sendCommand → exec (.rxByte b) s = .next
        { endedWith s (frameErrorRecord c t) with framer := idleFramer f', cState := .ready })

/-- R198 and R201: the deadline of a read expires at the T-th TICK and not before; SEND_COMMAND then loses the
connection, READ_ONE does not. -/
def Obligations.DeadlineExpiresAtItsTick : Prop :=
  ∀ (s : State) (k : Nat), s.cState = .awaiting → 1 ≤ k →
    (k < s.timer.toNat → execAll (List.replicate k .tick) s =
      .next { s with timer := s.timer - BitVec.ofNat 32 k, out := [] }) ∧
    (k = s.timer.toNat → s.cOp = .sendCommand → execAll (List.replicate k .tick) s =
      .next (closedWith { s with timer := 0#32 } (absentRecord .timeout))) ∧
    (k = s.timer.toNat → s.cOp ≠ .sendCommand → execAll (List.replicate k .tick) s =
      .next { endedWith s (absentRecord .timeout) with
        timer := 0#32, framer := idleFramer s.framer, cState := .ready })

/-- R200: READ_ONE arms the deadline at acceptance; a zero timeout is `TIMEOUT` at once, with the connection kept and
no byte taken. -/
def Obligations.ReadOneArmsTheDeadline : Prop :=
  ∀ (s : State) (useDefault : Bool) (timeout : U32), s.cState = .ready → s.connected = true →
    ((if useDefault then s.cfg.defaultTimeoutTicks else timeout) ≠ 0#32 →
      exec (.readOne useDefault timeout) s = .next { s with
        timer := (if useDefault then s.cfg.defaultTimeoutTicks else timeout)
        cOp := .readOne, cState := .awaiting, out := [] }) ∧
    ((if useDefault then s.cfg.defaultTimeoutTicks else timeout) = 0#32 →
      exec (.readOne useDefault timeout) s = .next { endedWith s (absentRecord .timeout) with
        timer := 0#32, framer := idleFramer s.framer })

/-- R205: XMIT writes the frame and completes at once, the connection staying `READY`. -/
def Obligations.XmitWritesAndCompletes : Prop :=
  ∀ (s : State) (p : List Byte), s.cState = .ready → s.connected = true → s.txbuf.wf = true → p.length ≤ 32767 →
    ∃ m, StoredAt s.txbuf m 0 p ∧ exec (.xmit p) s = .next { sent s (frameBytes s.cfg p) with
      txbuf := m, crc := crc16 p, cOp := .none, record := okRecord []
      out := [.tx (frameBytes s.cfg p), .result (okRecord [])] }

/-- R207: FLUSH waits for the drain and changes nothing else. -/
def Obligations.FlushWaitsForTheDrain : Prop :=
  ∀ s : State, s.cState = .ready → s.connected = true →
    exec .flush s = .next { s with cOp := .flush, cState := .txWait, out := [] }

/-- R210: RAW_DRAIN starts with an empty `DBUF` and both counters loaded; a zero window completes `OK` at once. -/
def Obligations.RawDrainStarts : Prop :=
  ∀ (s : State) (window perRead : U32), s.cState = .ready → s.connected = true →
    (window ≠ 0#32 → exec (.rawDrain window perRead) s = .next { s with
      dLen := 0, perRead := perRead, timer := window, timer2 := perRead, cOp := .rawDrain, cState := .rawRead
      out := [] }) ∧
    (window = 0#32 → exec (.rawDrain window perRead) s = .next { endedWith s (okRecord []) with
      dLen := 0, perRead := perRead, timer := 0#32, timer2 := perRead })

/-- R212 and R213: in `RAW_READ` with nothing pending a byte goes to `DBUF[d_len]` past the framer and restarts the
per-read counter; the byte that fills `DBUF` ends the drain with all of it. -/
def Obligations.RawReadStoresTheByte : Prop :=
  ∀ (s : State) (b : Byte), s.cState = .rawRead → s.net.rxPending = [] → s.dbuf.wf = true → s.dLen < s.cfg.drainMax →
    ∃ m, StoredAt s.dbuf m s.dLen [b] ∧
      (s.dLen + 1 < s.cfg.drainMax → exec (.rxByte b) s = .next { s with
        dbuf := m, dLen := s.dLen + 1, timer2 := s.perRead, out := [] }) ∧
      (s.dLen + 1 = s.cfg.drainMax → exec (.rxByte b) s = .next
        { endedWith s (okRecord (memBytes s.dbuf s.dLen ++ [b])) with
          dbuf := m, dLen := s.dLen + 1, timer2 := s.perRead, cState := .ready })

/-- R214: what a TICK does in `RAW_READ`, branch by branch. -/
def Obligations.RawReadTick : Prop :=
  ∀ s : State, s.cState = .rawRead → s.dLen ≤ s.cfg.drainMax →
    (s.timer.toNat ≤ 1 → exec .tick s = .next
      { endedWith s (okRecord (memBytes s.dbuf s.dLen)) with timer := 0#32, cState := .ready }) ∧
    (1 < s.timer.toNat → s.timer2.toNat ≤ 1 → 0 < s.dLen →
      exec .tick s = .next { s with timer := s.timer - 1#32, timer2 := s.perRead, out := [] }) ∧
    (1 < s.timer.toNat → s.timer2.toNat ≤ 1 → s.dLen = 0 → exec .tick s = .next
      { endedWith s (okRecord []) with timer := s.timer - 1#32, timer2 := 0#32, cState := .ready }) ∧
    (1 < s.timer.toNat → 1 < s.timer2.toNat →
      exec .tick s = .next { s with timer := s.timer - 1#32, timer2 := s.timer2 - 1#32, out := [] })

/-- R214: a drain that never sees a byte ends `OK` with no bytes after `min(window, per_read)` TICKs, where
`per_read = 0` counts as 1, and not before. -/
def Obligations.SilentDrainEnds : Prop :=
  ∀ (s : State) (window perRead : U32) (k : Nat), s.cState = .ready → s.connected = true → window ≠ 0#32 →
    k ≤ min window.toNat (max perRead.toNat 1) →
    ∃ t, execAll (.rawDrain window perRead :: List.replicate k .tick) s = .next t ∧
      (k < min window.toNat (max perRead.toNat 1) → t.cState = .rawRead ∧ t.record = s.record ∧ t.dLen = 0) ∧
      (k = min window.toNat (max perRead.toNat 1) → t.cState = .ready ∧ t.connected = true ∧ t.record = okRecord [] ∧
        t.cOp = .none ∧ t.dbuf = s.dbuf ∧ t.framer = s.framer ∧ t.net = s.net)

/-- R216, R245, R246: TX_ERROR in `TX_WAIT` and RX_ERROR in a read wait tear the connection down: the cause goes to
CAUSE, the connection is dropped with everything pending on it, the framer restarts; `crc`, `TXBUF`, `RXBUF`, the
timers and the configuration are not touched. -/
def Obligations.TransportErrorTearsDown : Prop :=
  (∀ s : State, s.cState = .txWait → exec .txError s = .next (closedWith s (absentRecord .transportError))) ∧
  (∀ s : State, s.cState = .awaiting ∨ s.cState = .rawRead →
    exec .rxError s = .next (closedWith s (absentRecord .transportError)))

/-- An event presented where it is not enabled changes nothing in the block; a byte or a failure stays in the
transport (U5, R40, R53, R238; that the model keeps it is notes/assumptions/8.md). -/
def Obligations.DisabledEventsWaitInTheTransport : Prop :=
  ∀ s : State,
    (s.cState ≠ .awaiting → s.cState ≠ .rawRead →
      (∀ b, exec (.rxByte b) s = .next { s with
        net := { s.net with rxPending := s.net.rxPending ++ [b] }, out := [] }) ∧
      exec .rxError s = .next { s with net := { s.net with rxFailed := true }, out := [] }) ∧
    (s.cState ≠ .txWait →
      exec .txDrained s = .next { s with out := [] } ∧
      exec .txError s = .next { s with net := { s.net with txFailed := true }, out := [] }) ∧
    (s.cState ≠ .opening →
      exec .openOk s = .next { s with out := [] } ∧ exec .openFail s = .next { s with out := [] }) ∧
    (s.cState ≠ .settling → s.cState ≠ .awaiting → s.cState ≠ .rawRead → exec .tick s = .next { s with out := [] })

/-- A byte that arrives in a read wait behind pending ones joins the back of RX, and the block takes the head. R51
calls RX_BYTE(b) the taking of the head, whose value is b; that an RX_BYTE presented while bytes are pending is an
arrival behind them is the model's reading, not the rule's (notes/assumptions/12.md). -/
def Obligations.PendingBytesAreTakenFirst : Prop :=
  ∀ (s : State) (b h : Byte) (t : List Byte), s.cState = .awaiting ∨ s.cState = .rawRead →
    s.net.rxPending = h :: t →
    exec (.rxByte b) s = takeRx h { s with net := { s.net with rxPending := t ++ [b] }, out := [] }

/-! ## The host port -/

/-- R183: an operation that needs the transport, accepted while `connected = 0`, only reports `NOT_CONNECTED`. -/
def Obligations.NotConnectedIsReported : Prop :=
  ∀ (s : State) (i : Instr), needsConnection i = true → hostReady s = true → s.connected = false →
    exec i s = .next (endedWith s (absentRecord .notConnected))

/-- R102: a reserved select completes `ABSENT, ILLEGAL_OP` and changes nothing else; on a busy port it is not
accepted. -/
def Obligations.ReservedSelectsAreRefused : Prop :=
  (encode .reserved0 = (.host, [0x0#8]) ∧ encode .reservedD = (.host, [0xD#8]) ∧
    encode .reservedE = (.host, [0xE#8]) ∧ encode .reservedF = (.host, [0xF#8])) ∧
  ∀ (s : State) (i : Instr), i = .reserved0 ∨ i = .reservedD ∨ i = .reservedE ∨ i = .reservedF →
    (hostReady s = true → exec i s = .next (endedWith s (absentRecord .illegalOp))) ∧
    (hostReady s = false → ∃ t, exec i s = .next t ∧ t.record = s.record ∧ t.cState = s.cState ∧ t.out = [])

/-- R181, U6: a host operation presented while the port is busy is held off and not lost, whichever it is
(notes/assumptions/9.md: the model queues it). -/
def Obligations.BusyPortHoldsTheOperation : Prop :=
  ∀ (s : State) (i : Instr), isHostOperation i = true → hostReady s = false →
    exec i s = .next { s with held := s.held ++ [i], out := [] }

/-- What was held off is accepted as soon as the port is ready, before anything presented
(R181; notes/assumptions/9.md). -/
def Obligations.HeldOperationIsAcceptedFirst : Prop :=
  ∀ (s : State) (i : Instr) (rest : List Instr), hostReady s = true → s.held = i :: rest →
    step s = exec i { s with held := rest }

/-! ## Wire formats as inputs -/

/-- A frame or a length field that the peer sends is the arrival of its bytes, one RX_BYTE each, with nothing between
them (R51, R57; notes/assumptions/13.md, 14.md): the same state but for what is put out. -/
def Obligations.WireRowsAreTheirBytes : Prop :=
  ∀ (s t : State) (i : Instr) (bs : List Byte), wireBytes s.cfg i = some bs →
    exec i s = .next t → ∃ o, execAll (bs.map .rxByte) s = .next { t with out := o }

/-- R156, R161, R197 for a whole frame (as an input: notes/assumptions/13.md): arriving at an idle framer in
`AWAITING` with nothing pending, it ends the read with exactly one verdict: its payload when the CRC field and the
stop byte are right, else `FRAME_ERROR` with the flags of what was wrong, and a Teardown for SEND_COMMAND alone. -/
def Obligations.ArrivingFrameEndsTheRead : Prop :=
  ∀ (s : State) (i : Instr) (p : List Byte) (crc : U16) (stop : Byte),
    (i = .frameS p crc stop ∧ p.length < 128) ∨ (i = .frameL p crc stop ∧ p.length ≤ 32767) →
    s.cState = .awaiting → FramerIdle s.framer → s.framer.rxbuf.wf = true → s.net.rxPending = [] →
    ∃ f', FramerIdle f' ∧ StoredAt s.framer.rxbuf f'.rxbuf 0 p ∧
      (crc = crc16 p → stop = s.cfg.stopMarker →
        exec i s = .next { endedWith s (okRecord p) with framer := f', cState := .ready }) ∧
      (¬(crc = crc16 p ∧ stop = s.cfg.stopMarker) → s.cOp = .sendCommand → exec i s = .next
        (closedWith { s with framer := f' }
          (frameErrorRecord (decide (crc ≠ crc16 p)) (decide (stop ≠ s.cfg.stopMarker))))) ∧
      (¬(crc = crc16 p ∧ stop = s.cfg.stopMarker) → s.cOp ≠ .sendCommand → exec i s = .next
        { endedWith s (frameErrorRecord (decide (crc ≠ crc16 p)) (decide (stop ≠ s.cfg.stopMarker))) with
          framer := f', cState := .ready })

/-- Outside a read wait the bytes of a wire row wait in the transport, in order (R40, R51). -/
def Obligations.WireRowsWaitOutsideReads : Prop :=
  ∀ (s : State) (i : Instr) (bs : List Byte), wireBytes s.cfg i = some bs →
    s.cState ≠ .awaiting → s.cState ≠ .rawRead →
    exec i s = .next { s with net := { s.net with rxPending := s.net.rxPending ++ bs }, out := [] }

/-- R151, R152 for a length field as an input (notes/assumptions/14.md): met in `READ_LENGTH`, either form sets
`f_len` to its value, and the framer goes on to the payload, or to the CRC field when the length is 0. -/
def Obligations.LengthFieldSetsTheLength : Prop :=
  ∀ (s : State) (i : Instr) (n : U15), (i = .lenL n ∨ ∃ m : BitVec 7, i = .lenS m ∧ n = m.setWidth 15) →
    s.cState = .awaiting → s.net.rxPending = [] → s.framer.state = .readLength → s.framer.len2 = false →
    (n ≠ 0 → exec i s = .next { s with
      framer := { s.framer with len := n, cnt := 0, crc := 0, state := .readPayload }, out := [] }) ∧
    (n = 0 → exec i s = .next { s with
      framer := { s.framer with len := n, cnt := 0, crc := 0, crcidx := false, state := .readCrc }, out := [] })

/-! ## Reset, registers, configuration -/

/-- R270: RESET in any state: the sequencing registers, the flags and the result record take their reset values, a
transport is dropped with `close_req`, no result is put out, the configuration stays. What it leaves in the data
registers and buffers is free (notes/assumptions/7.md); nothing is said of them. -/
def Obligations.ResetEventClears : Prop :=
  encode .reset = (.event, [0#8]) ∧
  ∀ s : State, ∃ t, exec .reset s = .next t ∧
    t.cfg = s.cfg ∧ t.cState = .disconnected ∧ t.cOp = .none ∧ t.connected = false ∧ FramerIdle t.framer ∧
    t.record = okRecord [] ∧ status t = 0x00#8 ∧ frameErr t = 0#2 ∧
    t.net.tx = [] ∧ t.net.undrained = [] ∧ t.net.rxPending = [] ∧ t.held = s.held ∧ t.inputs = s.inputs ∧
    (s.cState ≠ .disconnected → t.out = [.closeReq]) ∧ (s.cState = .disconnected → t.out = [])

/-- R271: the state after reset: every item the rule gives a value. -/
def Obligations.ResetStateValues : Prop :=
  State.reset.cState = .disconnected ∧ State.reset.cOp = .none ∧ State.reset.connected = false ∧
  FramerIdle State.reset.framer ∧ State.reset.record = okRecord [] ∧ status State.reset = 0x00#8 ∧
  frameErr State.reset = 0#2 ∧ State.reset.net.tx = [] ∧ State.reset.net.undrained = [] ∧
  State.reset.net.rxPending = [] ∧ State.reset.cfg.wf

/-- The fields of STATUS (R28), CAUSE (R29) and FRAMEERR (R30), with the numbers of the codes in them (R23, R24, R231),
and the numbers of `c_op` (R25) and `res_status` (R36). -/
def Obligations.StatusRegisterFields : Prop :=
  ∀ s : State,
    (status s).getLsbD 0 = s.connected ∧
    ((status s).getLsbD 1 = true ↔ s.cState ≠ .disconnected ∧ s.cState ≠ .ready) ∧
    (status s).extractLsb' 2 3 = (match s.cState with
      | .disconnected => 0#3 | .opening => 1#3 | .settling => 2#3 | .ready => 3#3
      | .txWait => 4#3 | .awaiting => 5#3 | .rawRead => 6#3) ∧
    (status s).extractLsb' 5 3 = (match s.framer.state with
      | .seekStart => 0#3 | .readLength => 1#3 | .readPayload => 2#3 | .readCrc => 3#3 | .readStop => 4#3) ∧
    causeRegister s = (match s.record.cause with
      | .none => 0#3 | .timeout => 1#3 | .frameError => 2#3 | .transportError => 3#3
      | .notConnected => 4#3 | .illegalOp => 5#3 | .incomplete => 6#3) ∧
    s.cOp.code = (match s.cOp with
      | .none => 0#3 | .connect => 1#3 | .sendCommand => 2#3 | .readOne => 3#3 | .flush => 4#3 | .rawDrain => 5#3) ∧
    s.record.status.code = (match s.record.status with | .ok => 0#1 | .absent => 1#1) ∧
    (frameErr s).getLsbD 0 = s.record.feCrc ∧ (frameErr s).getLsbD 1 = s.record.feStop

/-- R31: no input changes the configuration, RESET included. -/
def Obligations.ConfigurationIsConstant : Prop :=
  ∀ s t : State, step s = .next t → t.cfg = s.cfg

/-- R20, R21, R286: `crc` and `TXBUF` change only through the operations that write them; a receive never writes
`crc`. (RESET leaves both unspecified and stands among the exceptions.) -/
def Obligations.ReceivingNeverWritesCrc : Prop :=
  ∀ (s t : State) (i : Instr), writesCrc i = false → exec i s = .next t → t.crc = s.crc ∧ t.txbuf = s.txbuf

/-! ## The whole machine -/

/-- R188, D17: `connected` becomes 1 only at the end of the settle wait (at OPEN_OK when there is none), together
with CONNECT's `OK`. -/
def Obligations.ConnectedRisesOnlyAfterTheSettleWait : Prop :=
  ∀ s t : State, step s = .next t → s.connected = false → t.connected = true →
    ((s.cState = .settling ∧ s.timer.toNat ≤ 1) ∨ (s.cState = .opening ∧ s.cfg.settleTicks = 0#32)) ∧
    t.cState = .ready ∧ t.record = okRecord []

/-- R52: TX only grows, by one whole frame or the whole authentication line a step, and starts again empty. -/
def Obligations.TxGrowsByWholeFrames : Prop :=
  ∀ s t : State, BlockInv s → step s = .next t →
    t.net.tx = s.net.tx ∨ t.net.tx = [] ∨ t.net.tx = s.net.tx ++ s.cfg.authLine ∨
    ∃ p : List Byte, p.length ≤ 32767 ∧ t.net.tx = s.net.tx ++ frameBytes s.cfg p

/-- R221: every move of `c_state` is in the table. -/
def Obligations.CorrelatorMovesByTheTable : Prop :=
  ∀ s t : State, BlockInv s → step s = .next t → cMove s.cState t.cState = true

/-- R62: correlation is positional. Whatever command was sent, the next frame read is its answer: with nothing pending
the frame that arrives; with a frame pending from before the command that frame, taken with nothing presented, while
every byte behind it, the true response among them, stays pending. The frame as one input and the transport's turn are
the model's (notes/assumptions/11.md, 13.md). -/
def Obligations.NextFrameIsTheResponse : Prop :=
  ∀ (s : State) (cmd : Byte) (args : List Byte) (useDefault : Bool) (timeout : U32) (p : List Byte) (i : Instr),
    s.cState = .ready → s.connected = true → FramerIdle s.framer → s.txbuf.wf = true → s.framer.rxbuf.wf = true →
    args.length ≤ 32766 → (if useDefault then s.cfg.defaultTimeoutTicks else timeout) ≠ 0#32 →
    (i = .frameS p (crc16 p) s.cfg.stopMarker ∧ p.length < 128) ∨
      (i = .frameL p (crc16 p) s.cfg.stopMarker ∧ p.length ≤ 32767) →
    (s.net.rxPending = [] →
      ∃ t, execAll [.sendCommand cmd args useDefault timeout, .txDrained, i] s = .next t ∧
        t.cState = .ready ∧ t.connected = true ∧ t.record = okRecord p ∧ t.cOp = .none ∧ FramerIdle t.framer ∧
        t.net.tx = s.net.tx ++ frameBytes s.cfg (cmd :: args) ∧ t.net.rxPending = []) ∧
    (∀ bs rest : List Byte, wireBytes s.cfg i = some bs → s.net.rxPending = bs ++ rest → s.inputs = [] →
      s.net.rxFailed = false → s.net.txFailed = false →
      ∃ u t, execAll [.sendCommand cmd args useDefault timeout, .txDrained] s = .next u ∧
        stepTimes bs.length u = .next t ∧
        t.cState = .ready ∧ t.connected = true ∧ t.record = okRecord p ∧ t.cOp = .none ∧ FramerIdle t.framer ∧
        t.net.tx = s.net.tx ++ frameBytes s.cfg (cmd :: args) ∧ t.net.rxPending = rest)

/-- R199: up to the start of the read SEND_COMMAND leaves the block as XMIT, FLUSH and READ_ONE do, but for the latched
timeout, the operation in progress and the record; a timeout of 0, where the READ_ONE ends `ABSENT` at once, leaves it
as they and DISCONNECT do, but for the latched timeout, the record and its output. -/
def Obligations.SendCommandIsXmitFlushRead : Prop :=
  ∀ (s : State) (cmd : Byte) (args : List Byte) (useDefault : Bool) (timeout : U32), s.cState = .ready →
    s.connected = true → s.txbuf.wf = true → args.length ≤ 32766 →
    ((if useDefault then s.cfg.defaultTimeoutTicks else timeout) ≠ 0#32 →
      ∃ t u, execAll [.sendCommand cmd args useDefault timeout, .txDrained] s = .next t ∧
        execAll [.xmit (cmd :: args), .flush, .txDrained, .readOne useDefault timeout] s = .next u ∧
        t.cState = .awaiting ∧ t = { u with
          tLat := if useDefault then s.cfg.defaultTimeoutTicks else timeout, cOp := .sendCommand
          record := s.record }) ∧
    ((if useDefault then s.cfg.defaultTimeoutTicks else timeout) = 0#32 →
      ∃ t u, execAll [.sendCommand cmd args useDefault timeout, .txDrained] s = .next t ∧
        execAll [.xmit (cmd :: args), .flush, .txDrained, .readOne useDefault timeout, .disconnect] s = .next u ∧
        t.cState = .disconnected ∧ t = { u with
          tLat := 0#32, record := absentRecord .timeout, out := [.closeReq, .result (absentRecord .timeout)] })

/-- R44 and the rules it is derived from: every step keeps the invariant, from every state that meets it. -/
def Obligations.StepKeepsTheInvariant : Prop :=
  ∀ s t : State, BlockInv s → step s = .next t → BlockInv t

/-- The reset state meets the invariant. -/
def Obligations.ResetMeetsTheInvariant : Prop := BlockInv State.reset

/-- R237: nothing stops the block. From a state that meets the invariant every input inside its operand limits has a
next state, and no step faults. -/
def Obligations.NothingStopsTheBlock : Prop :=
  ∀ s : State, BlockInv s →
    (∀ i : Instr, i.wf s.cfg.drainMax = true → ∃ t, exec i s = .next t) ∧ NoFault (step s)

/-! ## Encodings and the step -/

/-- Every input inside its operand limits reads back from its own bytes, with nothing left over (the layout of the
operands is the model's choice, notes/assumptions/2.md). -/
def Obligations.EveryInputReadsBack : Prop :=
  ∀ (drainMax : Nat) (i : Instr), i.wf drainMax = true → decode (encode i).1 (encode i).2 = .ok (i, [])

/-- Words written out from R100, R103, R81, R85 and R95 decode to the inputs they stand for. -/
def Obligations.KnownWordsDecode : Prop :=
  decode .host [0x4#8] = .ok (.connect, []) ∧
  decode .host [0x6#8, 0x22#8, 0#8, 2#8, 0x07#8, 0x00#8, 0#8, 0#8, 0#8, 0#8, 3#8] =
    .ok (.sendCommand 0x22 [0x07, 0x00] false 3, []) ∧
  decode .host [0xF#8] = .ok (.reservedF, []) ∧
  decode .event [1#8, 0x02#8] = .ok (.rxByte 0x02, []) ∧
  decode .event [7#8] = .ok (.tick, []) ∧
  decode .frame [0x01#8, 0x04#8, 0x40#8, 0x84#8, 0x03#8] = .ok (.frameS [0x04] 0x4084 0x03, []) ∧
  decode .frame [0x80#8, 0x01#8, 0x04#8, 0x40#8, 0x84#8, 0x03#8] = .ok (.frameL [0x04] 0x4084 0x03, []) ∧
  decode .length [0x83#8, 0xE8#8] = .ok (.lenL 1000, []) ∧
  decode .command [0x60#8] = .ok (.bmsGetValues, [])

/-- A step runs the input presented first, when no held operation can be accepted before it; bytes that are no input
and operands over their limits are refused by name (notes/assumptions/1.md, 19.md). -/
def Obligations.StepRunsTheDecodedInput : Prop :=
  ∀ (s : State) (x : Presented) (rest : List Presented), s.inputs = x :: rest → (hostReady s = true → s.held = []) →
    (∀ i tail, decode x.port x.bytes = .ok (i, tail) → i.wf s.cfg.drainMax = true →
      step s = exec i { s with inputs := rest }) ∧
    (∀ i tail, decode x.port x.bytes = .ok (i, tail) → i.wf s.cfg.drainMax = false →
      step s = .refused (.unpresentable i)) ∧
    (∀ e, decode x.port x.bytes = .error e → step s = .refused (.undecodable e))

/-! ## The transport's turn -/

/-- What step does when nothing is presented and no held operation can be accepted. In a read wait a pending byte is
taken, oldest first (R40, R51), and a latched failure is raised (R53); which of the two comes first, and whether a
latched write failure shows there, are the environment's choices (U8), so both outcomes stand. In `TX_WAIT` a latched
write failure is raised (R53), and with nothing undrained TX_DRAINED comes at once (R207). Nothing else happens by
itself. The turn is the model's: notes/assumptions/11.md, 26.md. -/
def Obligations.TransportRaisesWhatItKept : Prop :=
  ∀ s : State, s.inputs = [] → (hostReady s = true → s.held = []) →
    (s.cState = .awaiting ∨ s.cState = .rawRead →
      (s.net.rxFailed = false → s.net.txFailed = false →
        (s.net.rxPending = [] → step s = .next { s with out := [] }) ∧
        (∀ h, s.net.rxPending = [h] → step s = exec (.rxByte h) { s with net := { s.net with rxPending := [] } }) ∧
        (∀ h t, s.net.rxPending = h :: t →
          step s = takeRx h { s with net := { s.net with rxPending := t }, out := [] })) ∧
      (s.net.rxFailed = true → s.net.rxPending = [] → step s =
        .next (closedWith { s with freeCount := s.freeCount + 1 } (absentRecord .transportError))) ∧
      (s.net.rxFailed = false → s.net.txFailed = true → s.net.rxPending = [] →
        step s = .next (closedWith { s with freeCount := s.freeCount + 1 } (absentRecord .transportError)) ∨
        step s = .next { s with freeCount := s.freeCount + 1, out := [] }) ∧
      (s.net.rxFailed = true ∨ s.net.txFailed = true → ∀ h t, s.net.rxPending = h :: t →
        step s = .next (closedWith { s with freeCount := s.freeCount + 1 } (absentRecord .transportError)) ∨
        step s = takeRx h
          { s with net := { s.net with rxPending := t }, freeCount := s.freeCount + 1, out := [] })) ∧
    (s.cState = .txWait →
      (s.net.txFailed = true → step s = .next (closedWith s (absentRecord .transportError))) ∧
      (s.net.txFailed = false → s.net.undrained = [] → step s = exec .txDrained s) ∧
      (s.net.txFailed = false → s.net.undrained ≠ [] → step s = .next { s with out := [] })) ∧
    (s.cState ≠ .awaiting → s.cState ≠ .rawRead → s.cState ≠ .txWait → step s = .next { s with out := [] })
end

