-- ==== Sys2Proof/Laws/Memory.lean ====
section
/-! SUPPORT. Buffers: a read after a write, every other index as before, and the canonical form kept by every
operation (R55). -/

namespace Sys2Proof.Machine

@[simp] theorem memRead_nil (i : Nat) : memRead [] i = unwritten := rfl

theorem memRead_cons (k : Nat) (v : Byte) (m : Memory) (i : Nat) :
    memRead ((k, v) :: m) i = if k = i then v else memRead m i := rfl

/-- Canonical form, one entry at a time. -/
theorem Memory.wf_cons {k : Nat} {v : Byte} {m : Memory} :
    Memory.wf ((k, v) :: m) = true ↔ v ≠ unwritten ∧ (∀ c ∈ m, k < c.1) ∧ m.wf = true := by
  simp [Memory.wf, and_assoc]

theorem Memory.within_iff {n : Nat} {m : Memory} : m.within n = true ↔ ∀ c ∈ m, c.1 < n := by
  simp [Memory.within]

/-- An index below every listed one is unlisted. -/
theorem memRead_of_lt {m : Memory} {i : Nat} (h : ∀ c ∈ m, i < c.1) : memRead m i = unwritten := by
  induction m with
  | nil => rfl
  | cons c m ih =>
    obtain ⟨k, v⟩ := c
    have hk : i < k := h (k, v) (by simp)
    rw [memRead_cons, if_neg (by omega)]
    exact ih fun c hc => h c (by simp [hc])

theorem memRead_cell (i : Nat) (v : Byte) (j : Nat) : memRead (cell i v) j = if i = j then v else unwritten := by
  unfold cell
  split
  · next h => subst h; simp
  · rfl

theorem memRead_cell_append (i : Nat) (v : Byte) (m : Memory) (j : Nat) (h : memRead m i = unwritten) :
    memRead (cell i v ++ m) j = if i = j then v else memRead m j := by
  unfold cell
  split
  · next hv => subst hv; simp only [List.nil_append]; split <;> simp_all
  · rfl

theorem mem_cell {i : Nat} {v : Byte} {c : Host.Cell} (h : c ∈ cell i v) : c = (i, v) ∧ v ≠ unwritten := by
  unfold cell at h
  split at h <;> simp_all

/-- What a write does to every read: the written index reads the new byte, every other index as before. -/
theorem memRead_memWrite {m : Memory} (hm : m.wf = true) (i : Nat) (v : Byte) (j : Nat) :
    memRead (memWrite m i v) j = if i = j then v else memRead m j := by
  induction m with
  | nil => simp [memWrite, memRead_cell]
  | cons c m ih =>
    obtain ⟨k, w⟩ := c
    obtain ⟨-, hlt, hwf⟩ := Memory.wf_cons.1 hm
    simp only [memWrite]
    split
    · next hik =>
      rw [memRead_cell_append]
      exact memRead_of_lt fun c hc => by
        rcases List.mem_cons.1 hc with rfl | hc
        · exact hik
        · exact lt_trans hik (hlt c hc)
    · split
      · next hik =>
        subst hik
        rw [memRead_cell_append _ _ _ _ (memRead_of_lt hlt), memRead_cons]
        split <;> rfl
      · next h1 h2 =>
        rw [memRead_cons, memRead_cons, ih hwf]
        by_cases hkj : k = j
        · rw [if_pos hkj, if_pos hkj, if_neg (by omega)]
        · rw [if_neg hkj, if_neg hkj]

/-- The written index reads the byte written. -/
theorem memRead_memWrite_same {m : Memory} (hm : m.wf = true) (i : Nat) (v : Byte) :
    memRead (memWrite m i v) i = v := by simp [memRead_memWrite hm]

/-- Every other index reads as before. -/
theorem memRead_memWrite_other {m : Memory} (hm : m.wf = true) {i j : Nat} (h : i ≠ j) (v : Byte) :
    memRead (memWrite m i v) j = memRead m j := by simp [memRead_memWrite hm, h]

/-- A write lists no index but the written one and those listed before. -/
theorem mem_memWrite {m : Memory} {i : Nat} {v : Byte} {c : Host.Cell} (h : c ∈ memWrite m i v) :
    c.1 = i ∨ c ∈ m := by
  induction m with
  | nil => exact .inl (by rw [(mem_cell h).1])
  | cons d m ih =>
    obtain ⟨k, w⟩ := d
    simp only [memWrite] at h
    split at h
    · rcases List.mem_append.1 h with h | h
      · exact .inl (by rw [(mem_cell h).1])
      · exact .inr h
    · split at h
      · rcases List.mem_append.1 h with h | h
        · exact .inl (by rw [(mem_cell h).1])
        · exact .inr (by simp [h])
      · rcases List.mem_cons.1 h with h | h
        · exact .inr (by simp [h])
        · rcases ih h with h | h
          · exact .inl h
          · exact .inr (by simp [h])

theorem wf_cell_append {i : Nat} {v : Byte} {m : Memory} (hm : m.wf = true) (hlt : ∀ c ∈ m, i < c.1) :
    Memory.wf (cell i v ++ m) = true := by
  unfold cell
  split
  · exact hm
  · next hv => exact Memory.wf_cons.2 ⟨hv, hlt, hm⟩

/-- A write keeps the canonical form. -/
theorem memWrite_wf {m : Memory} (hm : m.wf = true) (i : Nat) (v : Byte) : (memWrite m i v).wf = true := by
  induction m with
  | nil =>
    have := wf_cell_append (i := i) (v := v) (m := []) rfl (by simp)
    simpa [memWrite] using this
  | cons c m ih =>
    obtain ⟨k, w⟩ := c
    obtain ⟨hw, hlt, hwf⟩ := Memory.wf_cons.1 hm
    simp only [memWrite]
    split
    · next hik =>
      exact wf_cell_append hm fun c hc => by
        rcases List.mem_cons.1 hc with rfl | hc
        · exact hik
        · exact lt_trans hik (hlt c hc)
    · split
      · next hik => subst hik; exact wf_cell_append hwf hlt
      · next h1 h2 =>
        refine Memory.wf_cons.2 ⟨hw, fun c hc => ?_, ih hwf⟩
        rcases mem_memWrite hc with h | h
        · omega
        · exact hlt c h

/-- A write inside the buffer keeps every listed index inside it. -/
theorem memWrite_within {n : Nat} {m : Memory} (hm : m.within n = true) {i : Nat} (hi : i < n) (v : Byte) :
    (memWrite m i v).within n = true := by
  rw [Memory.within_iff] at *
  intro c hc
  rcases mem_memWrite hc with h | h
  · omega
  · exact hm c h

/-- Canonical memories that read the same everywhere are the same list. -/
theorem eq_of_memRead_eq {m n : Memory} (hm : m.wf = true) (hn : n.wf = true)
    (h : ∀ i, memRead m i = memRead n i) : m = n := by
  induction m generalizing n with
  | nil =>
    cases n with
    | nil => rfl
    | cons c n =>
      obtain ⟨k, v⟩ := c
      have := h k
      simp [memRead_cons] at this
      exact absurd this.symm (Memory.wf_cons.1 hn).1
  | cons c m ih =>
    obtain ⟨k, v⟩ := c
    obtain ⟨hv, hlt, hwf⟩ := Memory.wf_cons.1 hm
    cases n with
    | nil =>
      have := h k
      simp [memRead_cons] at this
      exact absurd this hv
    | cons d n =>
      obtain ⟨l, w⟩ := d
      obtain ⟨hw, hlt', hwf'⟩ := Memory.wf_cons.1 hn
      have hkl : k = l := by
        by_contra hne
        rcases Nat.lt_or_gt_of_ne hne with hl | hl
        · have h1 := h k
          rw [memRead_cons, if_pos rfl, memRead_cons, if_neg (by omega)] at h1
          rw [memRead_of_lt fun c hc => lt_trans hl (hlt' c hc)] at h1
          exact hv h1
        · have h1 := h l
          rw [memRead_cons, if_neg (by omega), memRead_cons, if_pos rfl] at h1
          rw [memRead_of_lt fun c hc => lt_trans hl (hlt c hc)] at h1
          exact hw h1.symm
      subst hkl
      have hvw : v = w := by simpa [memRead_cons] using h k
      subst hvw
      congr 1
      refine ih hwf hwf' fun i => ?_
      by_cases hi : k = i
      · subst hi
        rw [memRead_of_lt hlt, memRead_of_lt hlt']
      · simpa [memRead_cons, hi] using h i

/-! ## Ranges -/

@[simp] theorem memBytes_length (m : Memory) (n : Nat) : (memBytes m n).length = n := by simp [memBytes]

@[simp] theorem memBytes_zero (m : Memory) : memBytes m 0 = [] := rfl

theorem memBytes_succ (m : Memory) (n : Nat) : memBytes m (n + 1) = memBytes m n ++ [memRead m n] := by
  simp [memBytes, List.range_succ]

/-- Bytes below `n` do not see a write at or above `n`. -/
theorem memBytes_memWrite_of_le {m : Memory} (hm : m.wf = true) {n i : Nat} (h : n ≤ i) (v : Byte) :
    memBytes (memWrite m i v) n = memBytes m n := by
  refine List.map_congr_left fun j hj => memRead_memWrite_other hm ?_ v
  have := List.mem_range.1 hj
  omega

/-- Storing the next byte appends it. -/
theorem memBytes_memWrite_succ {m : Memory} (hm : m.wf = true) (n : Nat) (v : Byte) :
    memBytes (memWrite m n v) (n + 1) = memBytes m n ++ [v] := by
  rw [memBytes_succ, memBytes_memWrite_of_le hm le_rfl, memRead_memWrite_same hm]

/-! ## The checked accesses: what each can answer -/

/-- A checked write answers exactly inside the buffer, with the write. -/
theorem bufWrite_eq_some {n : Nat} {m m' : Memory} {i : Nat} {v : Byte} :
    bufWrite n m i v = some m' ↔ i < n ∧ memWrite m i v = m' := by
  unfold bufWrite
  split <;> simp_all

/-- A checked range read answers exactly inside the buffer, with the bytes. -/
theorem bufBytes_eq_some {size : Nat} {m : Memory} {n : Nat} {bs : List Byte} :
    bufBytes size m n = some bs ↔ n ≤ size ∧ memBytes m n = bs := by
  unfold bufBytes
  split <;> simp_all

/-- Everything a load can do: it answers when the bytes fit; the loaded indices read the bytes, every other index
reads as before, and the canonical form and the range are kept. -/
theorem bufLoad_spec {size : Nat} (bs : List Byte) {m : Memory} {i : Nat} (hm : m.wf = true)
    (hfit : i + bs.length ≤ size) :
    ∃ m', bufLoad size m i bs = some m' ∧ m'.wf = true ∧ (m.within size = true → m'.within size = true) ∧
      (∀ j, memRead m' j = if i ≤ j ∧ j < i + bs.length then bs.getD (j - i) 0 else memRead m j) := by
  induction bs generalizing m i with
  | nil =>
    refine ⟨m, rfl, hm, id, fun j => ?_⟩
    rw [if_neg (by simp)]
  | cons b bs ih =>
    simp only [List.length_cons] at hfit
    have hb : bufWrite size m i b = some (memWrite m i b) := bufWrite_eq_some.2 ⟨by omega, rfl⟩
    obtain ⟨m', he, hwf, hin, hr⟩ := ih (memWrite_wf hm i b) (i := i + 1) (by omega)
    refine ⟨m', by simp [bufLoad, hb, he], hwf, fun h => hin (memWrite_within h (by omega) b), fun j => ?_⟩
    rw [hr j, memRead_memWrite hm]
    by_cases hij : i = j
    · subst hij
      simp
    · by_cases hr1 : i + 1 ≤ j ∧ j < i + 1 + bs.length
      · rw [if_pos hr1, if_pos (by simp only [List.length_cons]; omega)]
        obtain ⟨d, rfl⟩ : ∃ d, j = i + 1 + d := ⟨j - (i + 1), by omega⟩
        rw [show i + 1 + d - (i + 1) = d by omega, show i + 1 + d - i = d + 1 by omega, List.getD_cons_succ]
      · rw [if_neg hr1, if_neg hij, if_neg (by simp only [List.length_cons]; omega)]

/-- A load answers exactly when the bytes fit. -/
theorem bufLoad_isSome {size : Nat} (bs : List Byte) {m : Memory} {i : Nat} :
    (bufLoad size m i bs).isSome = true ↔ bs = [] ∨ i + bs.length ≤ size := by
  induction bs generalizing m i with
  | nil => simp [bufLoad]
  | cons b bs ih =>
    simp only [bufLoad, bufWrite]
    by_cases h : i < size
    · simp only [h, if_true, ih, List.length_cons]
      rcases bs with _ | ⟨c, bs⟩
      · simp; omega
      · simp; omega
    · simp [h]; omega

/-- What is loaded from index 0 reads back. -/
theorem memBytes_bufLoad {size : Nat} {bs : List Byte} {m m' : Memory} (hm : m.wf = true)
    (h : bufLoad size m 0 bs = some m') (hfit : bs.length ≤ size) : memBytes m' bs.length = bs := by
  obtain ⟨m'', he, -, -, hr⟩ := bufLoad_spec (size := size) bs hm (i := 0) (by omega)
  obtain rfl : m' = m'' := by rw [h] at he; exact Option.some.inj he
  refine List.ext_getElem (by simp) fun j hj hj' => ?_
  simp only [memBytes, List.getElem_map, List.getElem_range]
  rw [hr j, if_pos ⟨by omega, by omega⟩]
  simp [List.getD, hj']

/-- A buffer made of bytes is canonical and in range. -/
theorem memOfBytes_ok (size : Nat) (bs : List Byte) :
    (memOfBytes size bs).wf = true ∧ (memOfBytes size bs).within size = true := by
  have key : ∀ (l : List (Byte × Nat)) (m : Memory), (∀ c ∈ l, c.2 < size) → m.wf = true → m.within size = true →
      (l.foldl (fun m c => memWrite m c.2 c.1) m).wf = true ∧
        (l.foldl (fun m c => memWrite m c.2 c.1) m).within size = true := by
    intro l
    induction l with
    | nil => exact fun m _ h1 h2 => ⟨h1, h2⟩
    | cons c l ih =>
      exact fun m h h1 h2 => ih _ (fun d hd => h d (by simp [hd])) (memWrite_wf h1 _ _)
        (memWrite_within h2 (h c (by simp)) _)
  refine key _ _ (fun c hc => ?_) rfl rfl
  have := List.snd_lt_of_mem_zipIdx hc
  simp at this
  omega

/-- The buffers of the reset state are canonical and in range. -/
theorem reset_buffers_wf :
    State.reset.txbuf.wf = true ∧ State.reset.framer.rxbuf.wf = true ∧ State.reset.dbuf.wf = true := ⟨rfl, rfl, rfl⟩

end Sys2Proof.Machine
end

