-- ==== Sys2Proof/Laws/State.lean ====
section
/-! SUPPORT. One lemma per field of State per named update, so that no proof unfolds a record update. -/

namespace Sys2Proof.Machine

/-! ## State.begin -/

@[simp] theorem State.begin_cfg (s : State) : (s.begin).cfg = s.cfg := rfl
@[simp] theorem State.begin_crc (s : State) : (s.begin).crc = s.crc := rfl
@[simp] theorem State.begin_txbuf (s : State) : (s.begin).txbuf = s.txbuf := rfl
@[simp] theorem State.begin_framer (s : State) : (s.begin).framer = s.framer := rfl
@[simp] theorem State.begin_cState (s : State) : (s.begin).cState = s.cState := rfl
@[simp] theorem State.begin_cOp (s : State) : (s.begin).cOp = s.cOp := rfl
@[simp] theorem State.begin_connected (s : State) : (s.begin).connected = s.connected := rfl
@[simp] theorem State.begin_timer (s : State) : (s.begin).timer = s.timer := rfl
@[simp] theorem State.begin_timer2 (s : State) : (s.begin).timer2 = s.timer2 := rfl
@[simp] theorem State.begin_perRead (s : State) : (s.begin).perRead = s.perRead := rfl
@[simp] theorem State.begin_tLat (s : State) : (s.begin).tLat = s.tLat := rfl
@[simp] theorem State.begin_dLen (s : State) : (s.begin).dLen = s.dLen := rfl
@[simp] theorem State.begin_dbuf (s : State) : (s.begin).dbuf = s.dbuf := rfl
@[simp] theorem State.begin_record (s : State) : (s.begin).record = s.record := rfl
@[simp] theorem State.begin_net (s : State) : (s.begin).net = s.net := rfl
@[simp] theorem State.begin_held (s : State) : (s.begin).held = s.held := rfl
@[simp] theorem State.begin_inputs (s : State) : (s.begin).inputs = s.inputs := rfl
@[simp] theorem State.begin_out (s : State) : (s.begin).out = [] := rfl
@[simp] theorem State.begin_freeCount (s : State) : (s.begin).freeCount = s.freeCount := rfl

/-! ## State.emit -/

@[simp] theorem State.emit_cfg (s : State) (o : Output) : (s.emit o).cfg = s.cfg := rfl
@[simp] theorem State.emit_crc (s : State) (o : Output) : (s.emit o).crc = s.crc := rfl
@[simp] theorem State.emit_txbuf (s : State) (o : Output) : (s.emit o).txbuf = s.txbuf := rfl
@[simp] theorem State.emit_framer (s : State) (o : Output) : (s.emit o).framer = s.framer := rfl
@[simp] theorem State.emit_cState (s : State) (o : Output) : (s.emit o).cState = s.cState := rfl
@[simp] theorem State.emit_cOp (s : State) (o : Output) : (s.emit o).cOp = s.cOp := rfl
@[simp] theorem State.emit_connected (s : State) (o : Output) : (s.emit o).connected = s.connected := rfl
@[simp] theorem State.emit_timer (s : State) (o : Output) : (s.emit o).timer = s.timer := rfl
@[simp] theorem State.emit_timer2 (s : State) (o : Output) : (s.emit o).timer2 = s.timer2 := rfl
@[simp] theorem State.emit_perRead (s : State) (o : Output) : (s.emit o).perRead = s.perRead := rfl
@[simp] theorem State.emit_tLat (s : State) (o : Output) : (s.emit o).tLat = s.tLat := rfl
@[simp] theorem State.emit_dLen (s : State) (o : Output) : (s.emit o).dLen = s.dLen := rfl
@[simp] theorem State.emit_dbuf (s : State) (o : Output) : (s.emit o).dbuf = s.dbuf := rfl
@[simp] theorem State.emit_record (s : State) (o : Output) : (s.emit o).record = s.record := rfl
@[simp] theorem State.emit_net (s : State) (o : Output) : (s.emit o).net = s.net := rfl
@[simp] theorem State.emit_held (s : State) (o : Output) : (s.emit o).held = s.held := rfl
@[simp] theorem State.emit_inputs (s : State) (o : Output) : (s.emit o).inputs = s.inputs := rfl
@[simp] theorem State.emit_out (s : State) (o : Output) : (s.emit o).out = s.out ++ [o] := rfl
@[simp] theorem State.emit_freeCount (s : State) (o : Output) : (s.emit o).freeCount = s.freeCount := rfl

/-! ## State.complete -/

@[simp] theorem State.complete_cfg (s : State) (st : ResStatus) (ca : Cause) (c t : Bool) (d : List Byte) : (s.complete st ca c t d).cfg = s.cfg := rfl
@[simp] theorem State.complete_crc (s : State) (st : ResStatus) (ca : Cause) (c t : Bool) (d : List Byte) : (s.complete st ca c t d).crc = s.crc := rfl
@[simp] theorem State.complete_txbuf (s : State) (st : ResStatus) (ca : Cause) (c t : Bool) (d : List Byte) : (s.complete st ca c t d).txbuf = s.txbuf := rfl
@[simp] theorem State.complete_framer (s : State) (st : ResStatus) (ca : Cause) (c t : Bool) (d : List Byte) : (s.complete st ca c t d).framer = s.framer := rfl
@[simp] theorem State.complete_cState (s : State) (st : ResStatus) (ca : Cause) (c t : Bool) (d : List Byte) : (s.complete st ca c t d).cState = s.cState := rfl
@[simp] theorem State.complete_cOp (s : State) (st : ResStatus) (ca : Cause) (c t : Bool) (d : List Byte) : (s.complete st ca c t d).cOp = .none := rfl
@[simp] theorem State.complete_connected (s : State) (st : ResStatus) (ca : Cause) (c t : Bool) (d : List Byte) : (s.complete st ca c t d).connected = s.connected := rfl
@[simp] theorem State.complete_timer (s : State) (st : ResStatus) (ca : Cause) (c t : Bool) (d : List Byte) : (s.complete st ca c t d).timer = s.timer := rfl
@[simp] theorem State.complete_timer2 (s : State) (st : ResStatus) (ca : Cause) (c t : Bool) (d : List Byte) : (s.complete st ca c t d).timer2 = s.timer2 := rfl
@[simp] theorem State.complete_perRead (s : State) (st : ResStatus) (ca : Cause) (c t : Bool) (d : List Byte) : (s.complete st ca c t d).perRead = s.perRead := rfl
@[simp] theorem State.complete_tLat (s : State) (st : ResStatus) (ca : Cause) (c t : Bool) (d : List Byte) : (s.complete st ca c t d).tLat = s.tLat := rfl
@[simp] theorem State.complete_dLen (s : State) (st : ResStatus) (ca : Cause) (c t : Bool) (d : List Byte) : (s.complete st ca c t d).dLen = s.dLen := rfl
@[simp] theorem State.complete_dbuf (s : State) (st : ResStatus) (ca : Cause) (c t : Bool) (d : List Byte) : (s.complete st ca c t d).dbuf = s.dbuf := rfl
@[simp] theorem State.complete_record (s : State) (st : ResStatus) (ca : Cause) (c t : Bool) (d : List Byte) : (s.complete st ca c t d).record = completionRecord st ca c t d := rfl
@[simp] theorem State.complete_net (s : State) (st : ResStatus) (ca : Cause) (c t : Bool) (d : List Byte) : (s.complete st ca c t d).net = s.net := rfl
@[simp] theorem State.complete_held (s : State) (st : ResStatus) (ca : Cause) (c t : Bool) (d : List Byte) : (s.complete st ca c t d).held = s.held := rfl
@[simp] theorem State.complete_inputs (s : State) (st : ResStatus) (ca : Cause) (c t : Bool) (d : List Byte) : (s.complete st ca c t d).inputs = s.inputs := rfl
@[simp] theorem State.complete_out (s : State) (st : ResStatus) (ca : Cause) (c t : Bool) (d : List Byte) : (s.complete st ca c t d).out = s.out ++ [.result (completionRecord st ca c t d)] := rfl
@[simp] theorem State.complete_freeCount (s : State) (st : ResStatus) (ca : Cause) (c t : Bool) (d : List Byte) : (s.complete st ca c t d).freeCount = s.freeCount := rfl

/-! ## State.completeOk -/

@[simp] theorem State.completeOk_cfg (s : State) (d : List Byte) : (s.completeOk d).cfg = s.cfg := rfl
@[simp] theorem State.completeOk_crc (s : State) (d : List Byte) : (s.completeOk d).crc = s.crc := rfl
@[simp] theorem State.completeOk_txbuf (s : State) (d : List Byte) : (s.completeOk d).txbuf = s.txbuf := rfl
@[simp] theorem State.completeOk_framer (s : State) (d : List Byte) : (s.completeOk d).framer = s.framer := rfl
@[simp] theorem State.completeOk_cState (s : State) (d : List Byte) : (s.completeOk d).cState = s.cState := rfl
@[simp] theorem State.completeOk_cOp (s : State) (d : List Byte) : (s.completeOk d).cOp = .none := rfl
@[simp] theorem State.completeOk_connected (s : State) (d : List Byte) : (s.completeOk d).connected = s.connected := rfl
@[simp] theorem State.completeOk_timer (s : State) (d : List Byte) : (s.completeOk d).timer = s.timer := rfl
@[simp] theorem State.completeOk_timer2 (s : State) (d : List Byte) : (s.completeOk d).timer2 = s.timer2 := rfl
@[simp] theorem State.completeOk_perRead (s : State) (d : List Byte) : (s.completeOk d).perRead = s.perRead := rfl
@[simp] theorem State.completeOk_tLat (s : State) (d : List Byte) : (s.completeOk d).tLat = s.tLat := rfl
@[simp] theorem State.completeOk_dLen (s : State) (d : List Byte) : (s.completeOk d).dLen = s.dLen := rfl
@[simp] theorem State.completeOk_dbuf (s : State) (d : List Byte) : (s.completeOk d).dbuf = s.dbuf := rfl
@[simp] theorem State.completeOk_record (s : State) (d : List Byte) : (s.completeOk d).record = ⟨.ok, .none, false, false, d⟩ := rfl
@[simp] theorem State.completeOk_net (s : State) (d : List Byte) : (s.completeOk d).net = s.net := rfl
@[simp] theorem State.completeOk_held (s : State) (d : List Byte) : (s.completeOk d).held = s.held := rfl
@[simp] theorem State.completeOk_inputs (s : State) (d : List Byte) : (s.completeOk d).inputs = s.inputs := rfl
@[simp] theorem State.completeOk_out (s : State) (d : List Byte) : (s.completeOk d).out = s.out ++ [.result ⟨.ok, .none, false, false, d⟩] := rfl
@[simp] theorem State.completeOk_freeCount (s : State) (d : List Byte) : (s.completeOk d).freeCount = s.freeCount := rfl

/-! ## State.completeAbsent -/

@[simp] theorem State.completeAbsent_cfg (s : State) (ca : Cause) : (s.completeAbsent ca).cfg = s.cfg := rfl
@[simp] theorem State.completeAbsent_crc (s : State) (ca : Cause) : (s.completeAbsent ca).crc = s.crc := rfl
@[simp] theorem State.completeAbsent_txbuf (s : State) (ca : Cause) : (s.completeAbsent ca).txbuf = s.txbuf := rfl
@[simp] theorem State.completeAbsent_framer (s : State) (ca : Cause) : (s.completeAbsent ca).framer = s.framer := rfl
@[simp] theorem State.completeAbsent_cState (s : State) (ca : Cause) : (s.completeAbsent ca).cState = s.cState := rfl
@[simp] theorem State.completeAbsent_cOp (s : State) (ca : Cause) : (s.completeAbsent ca).cOp = .none := rfl
@[simp] theorem State.completeAbsent_connected (s : State) (ca : Cause) : (s.completeAbsent ca).connected = s.connected := rfl
@[simp] theorem State.completeAbsent_timer (s : State) (ca : Cause) : (s.completeAbsent ca).timer = s.timer := rfl
@[simp] theorem State.completeAbsent_timer2 (s : State) (ca : Cause) : (s.completeAbsent ca).timer2 = s.timer2 := rfl
@[simp] theorem State.completeAbsent_perRead (s : State) (ca : Cause) : (s.completeAbsent ca).perRead = s.perRead := rfl
@[simp] theorem State.completeAbsent_tLat (s : State) (ca : Cause) : (s.completeAbsent ca).tLat = s.tLat := rfl
@[simp] theorem State.completeAbsent_dLen (s : State) (ca : Cause) : (s.completeAbsent ca).dLen = s.dLen := rfl
@[simp] theorem State.completeAbsent_dbuf (s : State) (ca : Cause) : (s.completeAbsent ca).dbuf = s.dbuf := rfl
@[simp] theorem State.completeAbsent_record (s : State) (ca : Cause) : (s.completeAbsent ca).record = completionRecord .absent ca false false [] := rfl
@[simp] theorem State.completeAbsent_net (s : State) (ca : Cause) : (s.completeAbsent ca).net = s.net := rfl
@[simp] theorem State.completeAbsent_held (s : State) (ca : Cause) : (s.completeAbsent ca).held = s.held := rfl
@[simp] theorem State.completeAbsent_inputs (s : State) (ca : Cause) : (s.completeAbsent ca).inputs = s.inputs := rfl
@[simp] theorem State.completeAbsent_out (s : State) (ca : Cause) : (s.completeAbsent ca).out = s.out ++ [.result (completionRecord .absent ca false false [])] := rfl
@[simp] theorem State.completeAbsent_freeCount (s : State) (ca : Cause) : (s.completeAbsent ca).freeCount = s.freeCount := rfl

/-! ## State.txAppend -/

@[simp] theorem State.txAppend_cfg (s : State) (b : List Byte) : (s.txAppend b).cfg = s.cfg := rfl
@[simp] theorem State.txAppend_crc (s : State) (b : List Byte) : (s.txAppend b).crc = s.crc := rfl
@[simp] theorem State.txAppend_txbuf (s : State) (b : List Byte) : (s.txAppend b).txbuf = s.txbuf := rfl
@[simp] theorem State.txAppend_framer (s : State) (b : List Byte) : (s.txAppend b).framer = s.framer := rfl
@[simp] theorem State.txAppend_cState (s : State) (b : List Byte) : (s.txAppend b).cState = s.cState := rfl
@[simp] theorem State.txAppend_cOp (s : State) (b : List Byte) : (s.txAppend b).cOp = s.cOp := rfl
@[simp] theorem State.txAppend_connected (s : State) (b : List Byte) : (s.txAppend b).connected = s.connected := rfl
@[simp] theorem State.txAppend_timer (s : State) (b : List Byte) : (s.txAppend b).timer = s.timer := rfl
@[simp] theorem State.txAppend_timer2 (s : State) (b : List Byte) : (s.txAppend b).timer2 = s.timer2 := rfl
@[simp] theorem State.txAppend_perRead (s : State) (b : List Byte) : (s.txAppend b).perRead = s.perRead := rfl
@[simp] theorem State.txAppend_tLat (s : State) (b : List Byte) : (s.txAppend b).tLat = s.tLat := rfl
@[simp] theorem State.txAppend_dLen (s : State) (b : List Byte) : (s.txAppend b).dLen = s.dLen := rfl
@[simp] theorem State.txAppend_dbuf (s : State) (b : List Byte) : (s.txAppend b).dbuf = s.dbuf := rfl
@[simp] theorem State.txAppend_record (s : State) (b : List Byte) : (s.txAppend b).record = s.record := rfl
@[simp] theorem State.txAppend_net (s : State) (b : List Byte) : (s.txAppend b).net = { s.net with tx := s.net.tx ++ b, undrained := s.net.undrained ++ b } := rfl
@[simp] theorem State.txAppend_held (s : State) (b : List Byte) : (s.txAppend b).held = s.held := rfl
@[simp] theorem State.txAppend_inputs (s : State) (b : List Byte) : (s.txAppend b).inputs = s.inputs := rfl
@[simp] theorem State.txAppend_out (s : State) (b : List Byte) : (s.txAppend b).out = s.out ++ [.tx b] := rfl
@[simp] theorem State.txAppend_freeCount (s : State) (b : List Byte) : (s.txAppend b).freeCount = s.freeCount := rfl

/-! ## State.framerReset -/

@[simp] theorem State.framerReset_cfg (s : State) : (s.framerReset).cfg = s.cfg := rfl
@[simp] theorem State.framerReset_crc (s : State) : (s.framerReset).crc = s.crc := rfl
@[simp] theorem State.framerReset_txbuf (s : State) : (s.framerReset).txbuf = s.txbuf := rfl
@[simp] theorem State.framerReset_framer (s : State) : (s.framerReset).framer = s.framer.restart := rfl
@[simp] theorem State.framerReset_cState (s : State) : (s.framerReset).cState = s.cState := rfl
@[simp] theorem State.framerReset_cOp (s : State) : (s.framerReset).cOp = s.cOp := rfl
@[simp] theorem State.framerReset_connected (s : State) : (s.framerReset).connected = s.connected := rfl
@[simp] theorem State.framerReset_timer (s : State) : (s.framerReset).timer = s.timer := rfl
@[simp] theorem State.framerReset_timer2 (s : State) : (s.framerReset).timer2 = s.timer2 := rfl
@[simp] theorem State.framerReset_perRead (s : State) : (s.framerReset).perRead = s.perRead := rfl
@[simp] theorem State.framerReset_tLat (s : State) : (s.framerReset).tLat = s.tLat := rfl
@[simp] theorem State.framerReset_dLen (s : State) : (s.framerReset).dLen = s.dLen := rfl
@[simp] theorem State.framerReset_dbuf (s : State) : (s.framerReset).dbuf = s.dbuf := rfl
@[simp] theorem State.framerReset_record (s : State) : (s.framerReset).record = s.record := rfl
@[simp] theorem State.framerReset_net (s : State) : (s.framerReset).net = s.net := rfl
@[simp] theorem State.framerReset_held (s : State) : (s.framerReset).held = s.held := rfl
@[simp] theorem State.framerReset_inputs (s : State) : (s.framerReset).inputs = s.inputs := rfl
@[simp] theorem State.framerReset_out (s : State) : (s.framerReset).out = s.out := rfl
@[simp] theorem State.framerReset_freeCount (s : State) : (s.framerReset).freeCount = s.freeCount := rfl

/-! ## State.closeTransport -/

@[simp] theorem State.closeTransport_cfg (s : State) : (s.closeTransport).cfg = s.cfg := rfl
@[simp] theorem State.closeTransport_crc (s : State) : (s.closeTransport).crc = s.crc := rfl
@[simp] theorem State.closeTransport_txbuf (s : State) : (s.closeTransport).txbuf = s.txbuf := rfl
@[simp] theorem State.closeTransport_framer (s : State) : (s.closeTransport).framer = s.framer.restart := rfl
@[simp] theorem State.closeTransport_cState (s : State) : (s.closeTransport).cState = .disconnected := rfl
@[simp] theorem State.closeTransport_cOp (s : State) : (s.closeTransport).cOp = s.cOp := rfl
@[simp] theorem State.closeTransport_connected (s : State) : (s.closeTransport).connected = false := rfl
@[simp] theorem State.closeTransport_timer (s : State) : (s.closeTransport).timer = s.timer := rfl
@[simp] theorem State.closeTransport_timer2 (s : State) : (s.closeTransport).timer2 = s.timer2 := rfl
@[simp] theorem State.closeTransport_perRead (s : State) : (s.closeTransport).perRead = s.perRead := rfl
@[simp] theorem State.closeTransport_tLat (s : State) : (s.closeTransport).tLat = s.tLat := rfl
@[simp] theorem State.closeTransport_dLen (s : State) : (s.closeTransport).dLen = s.dLen := rfl
@[simp] theorem State.closeTransport_dbuf (s : State) : (s.closeTransport).dbuf = s.dbuf := rfl
@[simp] theorem State.closeTransport_record (s : State) : (s.closeTransport).record = s.record := rfl
@[simp] theorem State.closeTransport_net (s : State) : (s.closeTransport).net = s.net.close := rfl
@[simp] theorem State.closeTransport_held (s : State) : (s.closeTransport).held = s.held := rfl
@[simp] theorem State.closeTransport_inputs (s : State) : (s.closeTransport).inputs = s.inputs := rfl
@[simp] theorem State.closeTransport_out (s : State) : (s.closeTransport).out = s.out ++ [.closeReq] := rfl
@[simp] theorem State.closeTransport_freeCount (s : State) : (s.closeTransport).freeCount = s.freeCount := rfl

/-! ## State.teardown -/

@[simp] theorem State.teardown_cfg (s : State) (ca : Cause) (c t : Bool) : (s.teardown ca c t).cfg = s.cfg := rfl
@[simp] theorem State.teardown_crc (s : State) (ca : Cause) (c t : Bool) : (s.teardown ca c t).crc = s.crc := rfl
@[simp] theorem State.teardown_txbuf (s : State) (ca : Cause) (c t : Bool) : (s.teardown ca c t).txbuf = s.txbuf := rfl
@[simp] theorem State.teardown_framer (s : State) (ca : Cause) (c t : Bool) : (s.teardown ca c t).framer = s.framer.restart := rfl
@[simp] theorem State.teardown_cState (s : State) (ca : Cause) (c t : Bool) : (s.teardown ca c t).cState = .disconnected := rfl
@[simp] theorem State.teardown_cOp (s : State) (ca : Cause) (c t : Bool) : (s.teardown ca c t).cOp = .none := rfl
@[simp] theorem State.teardown_connected (s : State) (ca : Cause) (c t : Bool) : (s.teardown ca c t).connected = false := rfl
@[simp] theorem State.teardown_timer (s : State) (ca : Cause) (c t : Bool) : (s.teardown ca c t).timer = s.timer := rfl
@[simp] theorem State.teardown_timer2 (s : State) (ca : Cause) (c t : Bool) : (s.teardown ca c t).timer2 = s.timer2 := rfl
@[simp] theorem State.teardown_perRead (s : State) (ca : Cause) (c t : Bool) : (s.teardown ca c t).perRead = s.perRead := rfl
@[simp] theorem State.teardown_tLat (s : State) (ca : Cause) (c t : Bool) : (s.teardown ca c t).tLat = s.tLat := rfl
@[simp] theorem State.teardown_dLen (s : State) (ca : Cause) (c t : Bool) : (s.teardown ca c t).dLen = s.dLen := rfl
@[simp] theorem State.teardown_dbuf (s : State) (ca : Cause) (c t : Bool) : (s.teardown ca c t).dbuf = s.dbuf := rfl
@[simp] theorem State.teardown_record (s : State) (ca : Cause) (c t : Bool) : (s.teardown ca c t).record = completionRecord .absent ca c t [] := rfl
@[simp] theorem State.teardown_net (s : State) (ca : Cause) (c t : Bool) : (s.teardown ca c t).net = s.net.close := rfl
@[simp] theorem State.teardown_held (s : State) (ca : Cause) (c t : Bool) : (s.teardown ca c t).held = s.held := rfl
@[simp] theorem State.teardown_inputs (s : State) (ca : Cause) (c t : Bool) : (s.teardown ca c t).inputs = s.inputs := rfl
@[simp] theorem State.teardown_out (s : State) (ca : Cause) (c t : Bool) : (s.teardown ca c t).out = s.out ++ [.closeReq] ++ [.result (completionRecord .absent ca c t [])] := rfl
@[simp] theorem State.teardown_freeCount (s : State) (ca : Cause) (c t : Bool) : (s.teardown ca c t).freeCount = s.freeCount := rfl

/-! ## State.openTransport -/

@[simp] theorem State.openTransport_cfg (s : State) : (s.openTransport).cfg = s.cfg := rfl
@[simp] theorem State.openTransport_crc (s : State) : (s.openTransport).crc = s.crc := rfl
@[simp] theorem State.openTransport_txbuf (s : State) : (s.openTransport).txbuf = s.txbuf := rfl
@[simp] theorem State.openTransport_framer (s : State) : (s.openTransport).framer = s.framer := rfl
@[simp] theorem State.openTransport_cState (s : State) : (s.openTransport).cState = .opening := rfl
@[simp] theorem State.openTransport_cOp (s : State) : (s.openTransport).cOp = .connect := rfl
@[simp] theorem State.openTransport_connected (s : State) : (s.openTransport).connected = false := rfl
@[simp] theorem State.openTransport_timer (s : State) : (s.openTransport).timer = s.timer := rfl
@[simp] theorem State.openTransport_timer2 (s : State) : (s.openTransport).timer2 = s.timer2 := rfl
@[simp] theorem State.openTransport_perRead (s : State) : (s.openTransport).perRead = s.perRead := rfl
@[simp] theorem State.openTransport_tLat (s : State) : (s.openTransport).tLat = s.tLat := rfl
@[simp] theorem State.openTransport_dLen (s : State) : (s.openTransport).dLen = s.dLen := rfl
@[simp] theorem State.openTransport_dbuf (s : State) : (s.openTransport).dbuf = s.dbuf := rfl
@[simp] theorem State.openTransport_record (s : State) : (s.openTransport).record = s.record := rfl
@[simp] theorem State.openTransport_net (s : State) : (s.openTransport).net = s.net.fresh := rfl
@[simp] theorem State.openTransport_held (s : State) : (s.openTransport).held = s.held := rfl
@[simp] theorem State.openTransport_inputs (s : State) : (s.openTransport).inputs = s.inputs := rfl
@[simp] theorem State.openTransport_out (s : State) : (s.openTransport).out = s.out ++ [.openReq] := rfl
@[simp] theorem State.openTransport_freeCount (s : State) : (s.openTransport).freeCount = s.freeCount := rfl

/-! ## State.hold -/

@[simp] theorem State.hold_cfg (s : State) (i : Instr) : (s.hold i).cfg = s.cfg := rfl
@[simp] theorem State.hold_crc (s : State) (i : Instr) : (s.hold i).crc = s.crc := rfl
@[simp] theorem State.hold_txbuf (s : State) (i : Instr) : (s.hold i).txbuf = s.txbuf := rfl
@[simp] theorem State.hold_framer (s : State) (i : Instr) : (s.hold i).framer = s.framer := rfl
@[simp] theorem State.hold_cState (s : State) (i : Instr) : (s.hold i).cState = s.cState := rfl
@[simp] theorem State.hold_cOp (s : State) (i : Instr) : (s.hold i).cOp = s.cOp := rfl
@[simp] theorem State.hold_connected (s : State) (i : Instr) : (s.hold i).connected = s.connected := rfl
@[simp] theorem State.hold_timer (s : State) (i : Instr) : (s.hold i).timer = s.timer := rfl
@[simp] theorem State.hold_timer2 (s : State) (i : Instr) : (s.hold i).timer2 = s.timer2 := rfl
@[simp] theorem State.hold_perRead (s : State) (i : Instr) : (s.hold i).perRead = s.perRead := rfl
@[simp] theorem State.hold_tLat (s : State) (i : Instr) : (s.hold i).tLat = s.tLat := rfl
@[simp] theorem State.hold_dLen (s : State) (i : Instr) : (s.hold i).dLen = s.dLen := rfl
@[simp] theorem State.hold_dbuf (s : State) (i : Instr) : (s.hold i).dbuf = s.dbuf := rfl
@[simp] theorem State.hold_record (s : State) (i : Instr) : (s.hold i).record = s.record := rfl
@[simp] theorem State.hold_net (s : State) (i : Instr) : (s.hold i).net = s.net := rfl
@[simp] theorem State.hold_held (s : State) (i : Instr) : (s.hold i).held = s.held ++ [i] := rfl
@[simp] theorem State.hold_inputs (s : State) (i : Instr) : (s.hold i).inputs = s.inputs := rfl
@[simp] theorem State.hold_out (s : State) (i : Instr) : (s.hold i).out = s.out := rfl
@[simp] theorem State.hold_freeCount (s : State) (i : Instr) : (s.hold i).freeCount = s.freeCount := rfl

/-! ## Framer, Transport and the completion record -/

@[simp] theorem Framer.restart_state (f : Framer) : f.restart.state = .seekStart := rfl
@[simp] theorem Framer.restart_len2 (f : Framer) : f.restart.len2 = false := rfl
@[simp] theorem Framer.restart_crcidx (f : Framer) : f.restart.crcidx = false := rfl
@[simp] theorem Framer.restart_len (f : Framer) : f.restart.len = f.len := rfl
@[simp] theorem Framer.restart_cnt (f : Framer) : f.restart.cnt = f.cnt := rfl
@[simp] theorem Framer.restart_crc (f : Framer) : f.restart.crc = f.crc := rfl
@[simp] theorem Framer.restart_rxcrc (f : Framer) : f.restart.rxcrc = f.rxcrc := rfl
@[simp] theorem Framer.restart_rxbuf (f : Framer) : f.restart.rxbuf = f.rxbuf := rfl
@[simp] theorem Transport.close_tx (n : Transport) : n.close.tx = n.tx := rfl
@[simp] theorem Transport.close_undrained (n : Transport) : n.close.undrained = [] := rfl
@[simp] theorem Transport.close_rxPending (n : Transport) : n.close.rxPending = [] := rfl
@[simp] theorem Transport.close_rxFailed (n : Transport) : n.close.rxFailed = false := rfl
@[simp] theorem Transport.close_txFailed (n : Transport) : n.close.txFailed = false := rfl
@[simp] theorem Transport.fresh_tx (n : Transport) : n.fresh.tx = [] := rfl
@[simp] theorem Transport.fresh_undrained (n : Transport) : n.fresh.undrained = [] := rfl
@[simp] theorem Transport.fresh_rxPending (n : Transport) : n.fresh.rxPending = [] := rfl
@[simp] theorem Transport.fresh_rxFailed (n : Transport) : n.fresh.rxFailed = n.rxFailed := rfl
@[simp] theorem Transport.fresh_txFailed (n : Transport) : n.fresh.txFailed = n.txFailed := rfl
@[simp] theorem completionRecord_status (st : ResStatus) (ca : Cause) (c t : Bool) (d : List Byte) :
    (completionRecord st ca c t d).status = st := rfl
@[simp] theorem completionRecord_cause (st : ResStatus) (ca : Cause) (c t : Bool) (d : List Byte) :
    (completionRecord st ca c t d).cause = ca := rfl
@[simp] theorem completionRecord_feCrc (st : ResStatus) (ca : Cause) (c t : Bool) (d : List Byte) :
    (completionRecord st ca c t d).feCrc = frameFlag ca c := rfl
@[simp] theorem completionRecord_feStop (st : ResStatus) (ca : Cause) (c t : Bool) (d : List Byte) :
    (completionRecord st ca c t d).feStop = frameFlag ca t := rfl
@[simp] theorem completionRecord_data (st : ResStatus) (ca : Cause) (c t : Bool) (d : List Byte) :
    (completionRecord st ca c t d).data = d := rfl

/-- The flags are the REJECT's under `FRAME_ERROR` (R36). -/
@[simp] theorem frameFlag_frameError (c : Bool) : frameFlag .frameError c = c := by cases c <;> rfl

/-- The flags are 0 under every other cause (R36). -/
theorem frameFlag_of_ne {ca : Cause} (h : ca ≠ .frameError) (c : Bool) : frameFlag ca c = false := by
  cases ca <;> first | rfl | exact absurd rfl h

/-- A flag that was 0 stays 0. -/
@[simp] theorem frameFlag_false (ca : Cause) : frameFlag ca false = false := by cases ca <;> rfl

/-- FramerReset twice is FramerReset once (R147). -/
@[simp] theorem Framer.restart_restart (f : Framer) : f.restart.restart = f.restart := rfl

/-- Two states are equal when their fields are. -/
theorem State.eq_of_fields {s t : State} (h1 : s.cfg = t.cfg) (h2 : s.crc = t.crc) (h3 : s.txbuf = t.txbuf)
    (h4 : s.framer = t.framer) (h5 : s.cState = t.cState) (h6 : s.cOp = t.cOp) (h7 : s.connected = t.connected)
    (h8 : s.timer = t.timer) (h9 : s.timer2 = t.timer2) (h10 : s.perRead = t.perRead) (h11 : s.tLat = t.tLat)
    (h12 : s.dLen = t.dLen) (h13 : s.dbuf = t.dbuf) (h14 : s.record = t.record) (h15 : s.net = t.net)
    (h16 : s.held = t.held) (h17 : s.inputs = t.inputs) (h18 : s.out = t.out) (h19 : s.freeCount = t.freeCount) :
    s = t := by
  cases s; cases t; simp_all

end Sys2Proof.Machine
end

