-- ==== Sys2Proof/Laws/Ops.lean ====
section
/-! SUPPORT. For each shared operation, what it can do: the host port, the connection check, the copy to `TXBUF`, the
encoder, the request, the ends of a read, the arrival of a byte, the fetch and the step. -/

namespace Sys2Proof.Machine

/-! ## The host port -/

theorem hostReady_iff {s : State} : hostReady s = true ↔ s.cState = .disconnected ∨ s.cState = .ready := by
  cases h : s.cState <;> simp [hostReady, h]

theorem readWait_iff {s : State} : readWait s = true ↔ s.cState = .awaiting ∨ s.cState = .rawRead := by
  cases h : s.cState <;> simp [readWait, h]

theorem onHostPort_ready {i : Instr} {s : State} {k : State → StepResult} (h : hostReady s = true) :
    onHostPort i s k = k s.begin := by simp [onHostPort, h]

theorem onHostPort_busy {i : Instr} {s : State} {k : State → StepResult} (h : hostReady s = false) :
    onHostPort i s k = .next (s.begin.hold i) := by simp [onHostPort, h]

/-- Everything the host port can do with an operation (R181). -/
theorem onHostPort_cases (i : Instr) (s : State) (k : State → StepResult) :
    (hostReady s = true ∧ onHostPort i s k = k s.begin) ∨
    (hostReady s = false ∧ onHostPort i s k = .next (s.begin.hold i)) := by
  cases h : hostReady s
  · exact .inr ⟨rfl, onHostPort_busy h⟩
  · exact .inl ⟨rfl, onHostPort_ready h⟩

theorem onConnection_connected {i : Instr} {s : State} {k : State → StepResult} (h : hostReady s = true)
    (hc : s.connected = true) : onConnection i s k = k s.begin := by
  simp [onConnection, onHostPort_ready h, hc]

theorem onConnection_notConnected {i : Instr} {s : State} {k : State → StepResult} (h : hostReady s = true)
    (hc : s.connected = false) : onConnection i s k = .next (s.begin.completeAbsent .notConnected) := by
  simp [onConnection, onHostPort_ready h, hc]

theorem onConnection_busy {i : Instr} {s : State} {k : State → StepResult} (h : hostReady s = false) :
    onConnection i s k = .next (s.begin.hold i) := onHostPort_busy h

/-- Everything an operation that needs the transport can do (R181, R183). -/
theorem onConnection_cases (i : Instr) (s : State) (k : State → StepResult) :
    (hostReady s = true ∧ s.connected = true ∧ onConnection i s k = k s.begin) ∨
    (hostReady s = true ∧ s.connected = false ∧
      onConnection i s k = .next (s.begin.completeAbsent .notConnected)) ∨
    (hostReady s = false ∧ onConnection i s k = .next (s.begin.hold i)) := by
  cases h : hostReady s
  · exact .inr (.inr ⟨rfl, onConnection_busy h⟩)
  · cases hc : s.connected
    · exact .inr (.inl ⟨rfl, rfl, onConnection_notConnected h hc⟩)
    · exact .inl ⟨rfl, rfl, onConnection_connected h hc⟩

/-! ## Bounds -/

@[simp] theorem orBounds_some (b : Buffer) (i : Nat) {α : Type} (a : α) (k : α → StepResult) :
    orBounds b i (some a) k = k a := rfl

/-- If a bounds check answers a next state, the access was inside and the continuation answered it. -/
theorem orBounds_next {b : Buffer} {i : Nat} {α : Type} {x : Option α} {k : α → StepResult} {t : State}
    (h : orBounds b i x k = .next t) : ∃ a, x = some a ∧ k a = .next t := by
  cases x with
  | none => cases h
  | some a => exact ⟨a, rfl, h⟩

/-! ## The encoder -/

@[simp] theorem crc16_eq (p : List Byte) : crc16 p = crcBytes crcInitial p := by simp [crc16]

/-- What copying and encoding a payload does (R131): it answers when the payload fits `TXBUF`; `TXBUF` keeps its form
and holds the payload, `crc` the CRC of the payload, and the frame is `Encode(p)`. -/
theorem copy_encode {p : List Byte} {s : State} {k : State → List Byte → StepResult} (hw : s.txbuf.wf = true)
    (hp : p.length ≤ maxPayload) :
    ∃ m, bufLoad 32767 s.txbuf 0 p = some m ∧ m.wf = true ∧ (s.txbuf.within 32767 = true → m.within 32767 = true) ∧
      memBytes m p.length = p ∧ (∀ j, p.length ≤ j → memRead m j = memRead s.txbuf j) ∧
      (copyToTxbuf p s fun s => runEncode p s k) =
        k { s with txbuf := m, crc := crc16 p } (encodeFrame s.cfg p) := by
  obtain ⟨m, hm, hwf, hin, hr⟩ := bufLoad_spec (size := 32767) p hw (i := 0) (by simpa [maxPayload] using hp)
  have hb : memBytes m p.length = p := memBytes_bufLoad hw hm (by simpa [maxPayload] using hp)
  refine ⟨m, hm, hwf, hin, hb, fun j hj => ?_, ?_⟩
  · rw [hr j, if_neg (by omega)]
  · have hsz : p.length ≤ 32767 := by simpa [maxPayload] using hp
    simp [copyToTxbuf, runEncode, bufferSize, hm, bufBytes, hsz, hb, encodeFrame]

/-- What a request does (R193): `TXBUF` and `crc` as the encoder leaves them, the frame on TX, the block in `TX_WAIT`
with the timeout latched. -/
theorem sendRequest_eq {p : List Byte} {t : U32} {s : State} (hw : s.txbuf.wf = true) (hp : p.length ≤ maxPayload) :
    ∃ m, bufLoad 32767 s.txbuf 0 p = some m ∧ m.wf = true ∧ (s.txbuf.within 32767 = true → m.within 32767 = true) ∧
      memBytes m p.length = p ∧
      sendRequest p t s = .next { State.txAppend { s with txbuf := m, crc := crc16 p } (encodeFrame s.cfg p) with
        tLat := t, cOp := .sendCommand, cState := .txWait } := by
  obtain ⟨m, hm, hwf, hin, hb, -, he⟩ := copy_encode (k := fun s frame =>
    .next { s.txAppend frame with tLat := t, cOp := .sendCommand, cState := .txWait }) hw hp
  exact ⟨m, hm, hwf, hin, hb, he⟩

/-! ## The ends of a read -/

theorem awaitFail_sendCommand {ca : Cause} {c t : Bool} {s : State} (h : s.cOp = .sendCommand) :
    awaitFail ca c t s = s.framerReset.teardown ca c t := by simp [awaitFail, h]

theorem awaitFail_other {ca : Cause} {c t : Bool} {s : State} (h : s.cOp ≠ .sendCommand) :
    awaitFail ca c t s = State.complete { s.framerReset with cState := .ready } .absent ca c t [] := by
  simp [awaitFail, h]

theorem armAwait_pos {t : U32} {s : State} (h : t ≠ 0#32) :
    armAwait t s = { s with timer := t, cState := .awaiting } := by simp [armAwait, h]

theorem armAwait_zero (s : State) :
    armAwait 0#32 s = awaitFail .timeout false false { s with timer := 0#32, cState := .awaiting } := rfl

/-! ## Bytes from the peer -/

/-- Everything the arrival of a byte can do (R40, R51): taken in a read wait, oldest first; else kept. -/
theorem receiveByte_cases (b : Byte) (s : State) :
    (readWait s = false ∧
      receiveByte b s = .next { s with net := { s.net with rxPending := s.net.rxPending ++ [b] } }) ∨
    (readWait s = true ∧ s.net.rxPending = [] ∧ receiveByte b s = takeRx b s) ∨
    (∃ h t, readWait s = true ∧ s.net.rxPending = h :: t ∧
      receiveByte b s = takeRx h { s with net := { s.net with rxPending := t ++ [b] } }) := by
  unfold receiveByte
  cases hw : readWait s
  · exact .inl ⟨rfl, by simp⟩
  · cases hp : s.net.rxPending with
    | nil => exact .inr (.inl ⟨rfl, rfl, by simp⟩)
    | cons h t => exact .inr (.inr ⟨h, t, rfl, rfl, by simp⟩)

@[simp] theorem receiveBytes_nil (s : State) : receiveBytes [] s = .next s := rfl

/-- If the first byte answers a next state, the rest goes on from there. -/
theorem receiveBytes_cons {b : Byte} {bs : List Byte} {s t : State} (h : receiveByte b s = .next t) :
    receiveBytes (b :: bs) s = receiveBytes bs t := by simp [receiveBytes, h]

/-- If several bytes answer a next state, each of them did. -/
theorem receiveBytes_cons_next {b : Byte} {bs : List Byte} {s u : State} (h : receiveBytes (b :: bs) s = .next u) :
    ∃ t, receiveByte b s = .next t ∧ receiveBytes bs t = .next u := by
  simp only [receiveBytes] at h
  split at h
  · exact ⟨_, ‹_›, h⟩
  · cases h
  · cases h

/-- Outside a read wait every byte waits in the transport. -/
theorem receiveBytes_kept {s : State} (h : readWait s = false) (bs : List Byte) :
    receiveBytes bs s = .next { s with net := { s.net with rxPending := s.net.rxPending ++ bs } } := by
  induction bs generalizing s with
  | nil => simp
  | cons b bs ih =>
    rw [receiveBytes_cons (t := { s with net := { s.net with rxPending := s.net.rxPending ++ [b] } })]
    · rw [ih]
      · simp
      · exact h
    · simp [receiveByte, h]

/-! ## The framer -/

/-- Everything a framer step can do (R158): the verdict is pending and the state a successor, or it is `READ_STOP`'s. -/
theorem framerStep_cases {cfg : Params} {f f' : Framer} {b : Byte} {v : Verdict}
    (h : framerStep cfg f b = some (f', v)) :
    (f.state = .seekStart ∧ f' = stepSeekStart cfg f b ∧ v = .pending) ∨
    (f.state = .readLength ∧ f' = stepReadLength f b ∧ v = .pending) ∨
    (f.state = .readPayload ∧ stepReadPayload cfg f b = some f' ∧ v = .pending) ∨
    (f.state = .readCrc ∧ f' = stepReadCrc f b ∧ v = .pending) ∨
    (f.state = .readStop ∧ f' = { f with state := .seekStart } ∧ v = stopVerdict cfg f b) := by
  unfold framerStep at h
  split at h
  · next hs =>
    simp only [Option.some.injEq, Prod.mk.injEq] at h
    exact .inl ⟨hs, h.1.symm, h.2.symm⟩
  · next hs =>
    simp only [Option.some.injEq, Prod.mk.injEq] at h
    exact .inr (.inl ⟨hs, h.1.symm, h.2.symm⟩)
  · next hs =>
    rw [Option.map_eq_some_iff] at h
    obtain ⟨g, hg, he⟩ := h
    simp only [Prod.mk.injEq] at he
    exact .inr (.inr (.inl ⟨hs, by rw [hg, he.1], he.2.symm⟩))
  · next hs =>
    simp only [Option.some.injEq, Prod.mk.injEq] at h
    exact .inr (.inr (.inr (.inl ⟨hs, h.1.symm, h.2.symm⟩)))
  · next hs =>
    simp only [Option.some.injEq, Prod.mk.injEq] at h
    exact .inr (.inr (.inr (.inr ⟨hs, h.1.symm, h.2.symm⟩)))

/-- Everything a step in `READ_PAYLOAD` can do (R153). -/
theorem stepReadPayload_cases {cfg : Params} {f f' : Framer} {b : Byte} (h : stepReadPayload cfg f b = some f') :
    f.cnt.toNat < 32767 ∧
    ((f.cnt + 1 = f.len ∧ f' = { f with
        rxbuf := memWrite f.rxbuf f.cnt.toNat b, crc := crcByte f.crc b, cnt := f.cnt + 1, crcidx := false,
        state := .readCrc }) ∨
     (f.cnt + 1 ≠ f.len ∧ f' = { f with
        rxbuf := memWrite f.rxbuf f.cnt.toNat b, crc := crcByte f.crc b, cnt := f.cnt + 1 })) := by
  unfold stepReadPayload at h
  split at h
  · cases h
  · next m hm =>
    obtain ⟨hlt, rfl⟩ := bufWrite_eq_some.1 hm
    refine ⟨hlt, ?_⟩
    split at h <;> cases h
    · exact .inl ⟨‹_›, rfl⟩
    · exact .inr ⟨‹_›, rfl⟩

/-- The two verdicts of `READ_STOP` (R156). -/
theorem stopVerdict_cases (cfg : Params) (f : Framer) (b : Byte) :
    (f.rxcrc = f.crc ∧ b = cfg.stopMarker ∧ stopVerdict cfg f b = .accept (memBytes f.rxbuf f.len.toNat)) ∨
    ((f.rxcrc ≠ f.crc ∨ b ≠ cfg.stopMarker) ∧
      stopVerdict cfg f b = .reject (decide (f.rxcrc ≠ f.crc)) (decide (b ≠ cfg.stopMarker))) := by
  by_cases h1 : f.rxcrc = f.crc <;> by_cases h2 : b = cfg.stopMarker <;>
    simp [stopVerdict, crcOk, stopOk, h1, h2]

/-! ## Fetch and step -/

theorem fetch_held {s : State} {i : Instr} {rest : List Instr} (h : hostReady s = true) (hh : s.held = i :: rest) :
    fetch s = .run i { s with held := rest } := by simp [fetch, h, hh]

/-- Nothing held off can be accepted: the presented input is looked at. -/
theorem fetch_presented {s : State} (h : hostReady s = true → s.held = []) : fetch s = fetchPresented s := by
  unfold fetch
  cases hr : hostReady s
  · rfl
  · simp [h hr]

/-- Everything a step can do (R10). -/
theorem step_cases (s : State) :
    (∃ i t, fetch s = .run i t ∧ step s = exec i t) ∨
    (∃ r, fetch s = .stop r ∧ step s = .refused r) ∨
    (fetch s = .idle ∧ step s = transportTurn s) := by
  unfold step
  cases h : fetch s with
  | run i t => exact .inl ⟨i, t, rfl, rfl⟩
  | stop r => exact .inr (.inl ⟨r, rfl, rfl⟩)
  | idle => exact .inr (.inr ⟨rfl, rfl⟩)

/-- What a fetched input is: held off and acceptable, or the first one presented. -/
theorem fetch_run {s t : State} {i : Instr} (h : fetch s = .run i t) :
    (∃ rest, hostReady s = true ∧ s.held = i :: rest ∧ t = { s with held := rest }) ∨
    (∃ x rest tail, s.inputs = x :: rest ∧ decode x.port x.bytes = .ok (i, tail) ∧
      i.wf s.cfg.drainMax = true ∧ t = { s with inputs := rest }) := by
  have key : ∀ {s t : State} {i : Instr}, fetchPresented s = .run i t →
      ∃ x rest tail, s.inputs = x :: rest ∧ decode x.port x.bytes = .ok (i, tail) ∧
        i.wf s.cfg.drainMax = true ∧ t = { s with inputs := rest } := by
    intro s t i h
    unfold fetchPresented at h
    split at h
    · cases h
    · next x rest hx =>
      split at h
      · cases h
      · next j tail hd =>
        split at h
        · cases h
          exact ⟨x, rest, tail, hx, hd, ‹_›, rfl⟩
        · cases h
  unfold fetch at h
  split at h
  · next hr =>
    split at h
    · next j rest hh =>
      cases h
      exact .inl ⟨rest, hr, hh, rfl⟩
    · exact .inr (key h)
  · exact .inr (key h)

end Sys2Proof.Machine
end

