-- ==== Sys2Proof/Laws/PerInstr.lean ====
section
/-! SUPPORT. The family EncodedWord: what holds of every input's own bytes, one lemma per constructor of Instr. -/

namespace Sys2Proof.Laws

/-- The encoding has a first byte, and on a port with a select it is a select of that port: 4 bits for an operation
(R100), 3 bits for an event (R103). -/
def EncodedWord.Statement (i : Instr) : Prop :=
  ∃ b bs, (encode i).2 = b :: bs ∧
    ((encode i).1 = .host → b.toNat < 16) ∧ ((encode i).1 = .event → b.toNat < 8)

/-- An input of the host port. -/
theorem encodedWord_host {i : Instr} {b : Byte} {bs : List Byte} (h : Sys2Proof.encode i = (.host, b :: bs))
    (hb : b.toNat < 16) : EncodedWord.Statement i :=
  ⟨b, bs, by rw [h], fun _ => hb, fun hp => by rw [h] at hp; cases hp⟩

/-- An event. -/
theorem encodedWord_event {i : Instr} {b : Byte} {bs : List Byte} (h : Sys2Proof.encode i = (.event, b :: bs))
    (hb : b.toNat < 8) : EncodedWord.Statement i :=
  ⟨b, bs, by rw [h], fun hp => (by rw [h] at hp; cases hp), fun _ => hb⟩

/-- An input of a port without a select. -/
theorem encodedWord_free {i : Instr} {p : Port} {b : Byte} {bs : List Byte} (h : Sys2Proof.encode i = (p, b :: bs))
    (hh : p ≠ .host) (he : p ≠ .event) : EncodedWord.Statement i :=
  ⟨b, bs, by rw [h], by rw [h]; exact fun hp => absurd hp hh, by rw [h]; exact fun hp => absurd hp he⟩

theorem EncodedWord.crc16 (data : List Byte) : EncodedWord.Statement (.crc16 data) :=
  encodedWord_host rfl (by decide)
theorem EncodedWord.encode (payload : List Byte) : EncodedWord.Statement (.encode payload) :=
  encodedWord_host rfl (by decide)
theorem EncodedWord.decode (buf : List Byte) : EncodedWord.Statement (.decode buf) :=
  encodedWord_host rfl (by decide)
theorem EncodedWord.connect : EncodedWord.Statement .connect :=
  encodedWord_host rfl (by decide)
theorem EncodedWord.disconnect : EncodedWord.Statement .disconnect :=
  encodedWord_host rfl (by decide)
theorem EncodedWord.sendCommand (cmd : Byte) (args : List Byte) (useDefault : Bool) (timeout : U32) :
    EncodedWord.Statement (.sendCommand cmd args useDefault timeout) :=
  encodedWord_host rfl (by decide)
theorem EncodedWord.readOne (useDefault : Bool) (timeout : U32) : EncodedWord.Statement (.readOne useDefault timeout) :=
  encodedWord_host rfl (by decide)
theorem EncodedWord.xmit (payload : List Byte) : EncodedWord.Statement (.xmit payload) :=
  encodedWord_host rfl (by decide)
theorem EncodedWord.flush : EncodedWord.Statement .flush :=
  encodedWord_host rfl (by decide)
theorem EncodedWord.rawDrain (window perRead : U32) : EncodedWord.Statement (.rawDrain window perRead) :=
  encodedWord_host rfl (by decide)
theorem EncodedWord.crcInit : EncodedWord.Statement .crcInit :=
  encodedWord_host rfl (by decide)
theorem EncodedWord.crcByte (b : Byte) : EncodedWord.Statement (.crcByte b) :=
  encodedWord_host rfl (by decide)
theorem EncodedWord.reserved0 : EncodedWord.Statement .reserved0 :=
  encodedWord_host rfl (by decide)
theorem EncodedWord.reservedD : EncodedWord.Statement .reservedD :=
  encodedWord_host rfl (by decide)
theorem EncodedWord.reservedE : EncodedWord.Statement .reservedE :=
  encodedWord_host rfl (by decide)
theorem EncodedWord.reservedF : EncodedWord.Statement .reservedF :=
  encodedWord_host rfl (by decide)
theorem EncodedWord.reset : EncodedWord.Statement .reset :=
  encodedWord_event rfl (by decide)
theorem EncodedWord.rxByte (b : Byte) : EncodedWord.Statement (.rxByte b) :=
  encodedWord_event rfl (by decide)
theorem EncodedWord.rxError : EncodedWord.Statement .rxError :=
  encodedWord_event rfl (by decide)
theorem EncodedWord.txDrained : EncodedWord.Statement .txDrained :=
  encodedWord_event rfl (by decide)
theorem EncodedWord.txError : EncodedWord.Statement .txError :=
  encodedWord_event rfl (by decide)
theorem EncodedWord.openOk : EncodedWord.Statement .openOk :=
  encodedWord_event rfl (by decide)
theorem EncodedWord.openFail : EncodedWord.Statement .openFail :=
  encodedWord_event rfl (by decide)
theorem EncodedWord.tick : EncodedWord.Statement .tick :=
  encodedWord_event rfl (by decide)
theorem EncodedWord.frameS (payload : List Byte) (crc : U16) (stop : Byte) :
    EncodedWord.Statement (.frameS payload crc stop) := by
  by_cases h : payload.length < 128 <;>
    exact encodedWord_free (p := .frame) (by simp [Sys2Proof.encode, lenField, h]; exact ⟨rfl, rfl⟩) (by simp) (by simp)
theorem EncodedWord.frameL (payload : List Byte) (crc : U16) (stop : Byte) :
    EncodedWord.Statement (.frameL payload crc stop) :=
  encodedWord_free rfl (by simp) (by simp)
theorem EncodedWord.lenS (n : BitVec 7) : EncodedWord.Statement (.lenS n) :=
  encodedWord_free rfl (by simp) (by simp)
theorem EncodedWord.lenL (n : U15) : EncodedWord.Statement (.lenL n) :=
  encodedWord_free rfl (by simp) (by simp)
theorem EncodedWord.fwVersion : EncodedWord.Statement .fwVersion :=
  encodedWord_free rfl (by simp) (by simp)
theorem EncodedWord.getValues (args : List Byte) : EncodedWord.Statement (.getValues args) :=
  encodedWord_free rfl (by simp) (by simp)
theorem EncodedWord.forwardCan (target : Byte) (inner : List Byte) : EncodedWord.Statement (.forwardCan target inner) :=
  encodedWord_free rfl (by simp) (by simp)
theorem EncodedWord.pingCan : EncodedWord.Statement .pingCan :=
  encodedWord_free rfl (by simp) (by simp)
theorem EncodedWord.getCustomConfig (arg : Byte) : EncodedWord.Statement (.getCustomConfig arg) :=
  encodedWord_free rfl (by simp) (by simp)
theorem EncodedWord.bmsGetValues : EncodedWord.Statement .bmsGetValues :=
  encodedWord_free rfl (by simp) (by simp)

end Sys2Proof.Laws
end

