-- ==== Sys2Proof/Laws/Runs.lean ====
section
/-! SUPPORT. Several inputs or several steps one after the other: how a run splits, so that no proof unfolds it. -/

namespace Sys2Proof.Machine

theorem execAll_cons {i : Instr} {is : List Instr} {s t : State} (h : exec i s = .next t) :
    execAll (i :: is) s = execAll is t := by simp [execAll, h]

/-- A run of inputs that goes on past `is` is the run of what follows from where `is` ended. -/
theorem execAll_append {is js : List Instr} {s t : State} (h : execAll is s = .next t) :
    execAll (is ++ js) s = execAll js t := by
  induction is generalizing s with
  | nil => cases h; rfl
  | cons i is ih =>
    simp only [execAll] at h
    split at h
    · rename_i u hu
      rw [List.cons_append, execAll_cons hu]
      exact ih h
    · cases h
    · cases h

theorem stepTimes_succ {n : Nat} {s t : State} (h : step s = .next t) : stepTimes (n + 1) s = stepTimes n t := by
  simp [stepTimes, h]

/-- A run of steps that goes on past `m` is the run from where the first `m` ended. -/
theorem stepTimes_add {m n : Nat} {s t : State} (h : stepTimes m s = .next t) :
    stepTimes (m + n) s = stepTimes n t := by
  induction m generalizing s with
  | zero => cases h; simp
  | succ m ih =>
    simp only [stepTimes] at h
    split at h
    · rename_i u hu
      rw [Nat.succ_add, stepTimes_succ hu]
      exact ih h
    · cases h
    · cases h

end Sys2Proof.Machine
end

