-- ==== Sys2Proof/Tests/Slice0.lean ====
section
/-! SUPPORT. Tests. Expected values come from 95_test_vectors.md (V-C, V-E, V-F, V-K, P), from its tables, or from
hand calculation by the rule named; the illustration markers 0x02 and 0x03 are that file's. A `witness` shows that the
hypotheses of an obligation can be met. -/

namespace Sys2Proof.Tests

open Sys2Proof.Machine

/-! ## A small state -/

/-- The parameters of 95_test_vectors.md section 0, with `SETTLE_TICKS = 2` and `DRAIN_MAX = 4`. -/
def cfg : Params := ⟨0x02, 0x03, 2, 10, false, [], 8, 4⟩

/-- The state after reset with `c_state` and `c_op` put where a test starts, and both counters at 3. -/
def at_ (c : CState) (o : COp) : State :=
  { State.reset with
    cfg := cfg, cState := c, cOp := o, connected := isConnectedState c, timer := 3, timer2 := 3, perRead := 3 }

/-- `READY`, connected and idle. -/
def ready : State := at_ .ready .none

/-- `DISCONNECTED`. -/
def idle : State := at_ .disconnected .none

/-- `AWAITING` with a framer in `READ_PAYLOAD`: one payload byte `04` of two stored. -/
def midFrame (o : COp) : State :=
  { at_ .awaiting o with
    framer := { state := .readPayload, len2 := false, crcidx := false, len := 2, cnt := 1, crc := 0x4084, rxcrc := 0
                rxbuf := [(0, 0x04)] } }

/-- `AWAITING` with a framer in `READ_LENGTH`. -/
def atLength : State := { at_ .awaiting .readOne with framer := { Framer.reset with state := .readLength } }

/-- What the host sees of a step: STATUS, the record, the outputs. -/
def seen : StepResult → Option (BitVec 8 × Record × List Output)
  | .next t => some (status t, t.record, t.out)
  | _ => none

/-- One field of the state after a step. -/
def field {α : Type} (f : State → α) : StepResult → Option α
  | .next t => some (f t)
  | _ => none

/-! ## WellFormed refuses each kind of ill-formed term -/

theorem test_illformed_payloads :
    Instr.wf 4 (.crc16 (List.replicate 32768 0)) = false ∧ Instr.wf 4 (.encode (List.replicate 32768 0)) = false ∧
    Instr.wf 4 (.xmit (List.replicate 32768 0)) = false ∧
    Instr.wf 4 (.frameL (List.replicate 32768 0) 0 0) = false := by
  simp only [Instr.wf, List.length_replicate]; decide

theorem test_illformed_requests :
    Instr.wf 4 (.sendCommand 0 (List.replicate 32767 0) false 0) = false ∧
    Instr.wf 4 (.getValues (List.replicate 32767 0)) = false ∧
    Instr.wf 4 (.forwardCan 7 (List.replicate 32766 0)) = false := by
  simp only [Instr.wf, List.length_replicate]; decide

theorem test_illformed_buffers :
    Instr.wf 4 (.decode (List.replicate 32774 0)) = false ∧ Instr.wf 70000 (.decode (List.replicate 65536 0)) = false ∧
    Instr.wf 4 (.frameS (List.replicate 128 0) 0 0) = false := by
  simp only [Instr.wf, List.length_replicate]; decide

/-! ## Decoding: words written out from R100, R102, R103, R81, R82, R85, R95 -/

theorem test_decode_host_words :
    decode .host [0x01, 0, 2, 0xAA, 0xBB] = .ok (.crc16 [0xAA, 0xBB], []) ∧
    decode .host [0x02, 0, 1, 0x04] = .ok (.encode [0x04], []) ∧
    decode .host [0x03, 0, 1, 0x02] = .ok (.decode [0x02], []) ∧
    decode .host [0x04] = .ok (.connect, []) ∧
    decode .host [0x05] = .ok (.disconnect, []) ∧
    decode .host [0x06, 0x22, 0, 2, 0x07, 0x00, 1, 0, 0, 0, 3] = .ok (.sendCommand 0x22 [0x07, 0x00] true 3, []) := by
  decide

theorem test_decode_more_host_words :
    decode .host [0x07, 0, 0x01, 0x02, 0x03, 0x04] = .ok (.readOne false 0x01020304, []) ∧
    decode .host [0x08, 0, 2, 0x5D, 0x00] = .ok (.xmit [0x5D, 0x00], []) ∧
    decode .host [0x09] = .ok (.flush, []) ∧
    decode .host [0x0A, 0, 0, 0, 6, 0, 0, 1, 2] = .ok (.rawDrain 6 0x102, []) ∧
    decode .host [0x0B] = .ok (.crcInit, []) ∧
    decode .host [0x0C, 0x31] = .ok (.crcByte 0x31, []) := by decide

theorem test_decode_reserved_words :
    decode .host [0x00] = .ok (.reserved0, []) ∧ decode .host [0x0D] = .ok (.reservedD, []) ∧
    decode .host [0x0E] = .ok (.reservedE, []) ∧ decode .host [0x0F] = .ok (.reservedF, []) := by decide

theorem test_decode_event_words :
    decode .event [0] = .ok (.reset, []) ∧ decode .event [1, 0xA5] = .ok (.rxByte 0xA5, []) ∧
    decode .event [2] = .ok (.rxError, []) ∧ decode .event [3] = .ok (.txDrained, []) ∧
    decode .event [4] = .ok (.txError, []) ∧ decode .event [5] = .ok (.openOk, []) ∧
    decode .event [6] = .ok (.openFail, []) ∧ decode .event [7] = .ok (.tick, []) := by decide

theorem test_decode_wire_words :
    decode .frame [0x02, 0xAA, 0xBB, 0x12, 0x34, 0x03] = .ok (.frameS [0xAA, 0xBB] 0x1234 0x03, []) ∧
    decode .frame [0x80, 0x01, 0xAA, 0x12, 0x34, 0x03] = .ok (.frameL [0xAA] 0x1234 0x03, []) ∧
    decode .length [0x7F] = .ok (.lenS 127, []) ∧ decode .length [0x81, 0x00] = .ok (.lenL 256, []) := by decide

theorem test_decode_command_words :
    decode .command [0x00] = .ok (.fwVersion, []) ∧ decode .command [0x04, 0, 1, 9] = .ok (.getValues [9], []) ∧
    decode .command [0x22, 0x07, 0, 1, 0x00] = .ok (.forwardCan 0x07 [0x00], []) ∧
    decode .command [0x3E] = .ok (.pingCan, []) ∧ decode .command [0x5D, 0x00] = .ok (.getCustomConfig 0x00, []) ∧
    decode .command [0x60] = .ok (.bmsGetValues, []) := by decide

theorem test_decode_refuses :
    decode .host [] = .error .empty ∧ decode .host [0x10] = .error .selectTooWide ∧
    decode .event [8] = .error .selectTooWide ∧ decode .host [0x0C] = .error .truncated ∧
    decode .host [0x01, 0x80, 0x00] = .error .countTooLong ∧ decode .host [0x07, 2, 0, 0, 0, 0] = .error .notABit ∧
    decode .command [0x01] = .error .unknownCommand := by decide

/-- R87: the length fields at the boundary. -/
theorem test_length_fields :
    lenField 0 = [0x00] ∧ lenField 127 = [0x7F] ∧ lenField 128 = [0x80, 0x80] ∧ lenField 255 = [0x80, 0xFF] ∧
    lenField 256 = [0x81, 0x00] ∧ lenField 1000 = [0x83, 0xE8] ∧ lenField 32767 = [0xFF, 0xFF] := by decide

theorem test_table_words :
    decodeTableWord 8 0x0 = some .reserved0 ∧ decodeTableWord 8 0x1 = some (.crc16 []) ∧
    decodeTableWord 8 0x6 = some (.sendCommand 0 [] false 0) ∧ decodeTableWord 8 0xF = some .reservedF ∧
    decodeTableWord 8 0x60 = some .bmsGetValues ∧ decodeTableWord 16 0x8000 = some (.lenL 0) := by decide

theorem test_table_frame_words :
    decodeTableWord 8 0x80 = some (.frameL [] 0 0) ∧
    decodeTableWord 8 0x11 = some (.frameS (List.replicate 17 0) 0 0) := by
  decide

/-- A word placed where step takes its next input is run: CRC.INIT from reset. -/
theorem test_step_runs_the_placed_word :
    seen (step (State.reset.withFetchWord 8 0xB)) = some (0x00, okRecord [0, 0], [.result (okRecord [0, 0])]) := by
  decide

/-! ## The CRC unit -/

/-- V-C30, V-C6, V-C31. -/
theorem test_crc16_vectors :
    crc16 [0x31, 0x32, 0x33, 0x34, 0x35, 0x36, 0x37, 0x38, 0x39] = 0x31C3 ∧ crc16 [0xFF] = 0x1EF0 ∧
    crc16 [0x22, 0x07, 0x00, 0x71, 0x31] = 0x0000 := by decide +kernel

/-- V-C41. -/
theorem test_crc16_operation :
    seen (exec (.crc16 [0x22, 0x07, 0x00]) idle) =
      some (0x00, okRecord [0x71, 0x31], [.result (okRecord [0x71, 0x31])]) ∧
    field State.crc (exec (.crc16 [0x22, 0x07, 0x00]) idle) = some 0x7131 := by decide +kernel

/-- V-C42. -/
theorem test_crcInit :
    field State.crc (exec .crcInit { ready with crc := 0x1234 }) = some 0 ∧
    field State.record (exec .crcInit { ready with crc := 0x1234 }) = some (okRecord [0, 0]) := by decide

/-- V-C44. -/
theorem test_crcByte :
    field State.crc (exec (.crcByte 0x32) { idle with crc := 0x2672 }) = some 0x20B5 ∧
    field State.record (exec (.crcByte 0x32) { idle with crc := 0x2672 }) = some (okRecord [0x20, 0xB5]) := by
  decide

/-! ## The encoder and the framer -/

/-- V-E7, P8 row 1. -/
theorem test_encode_operation :
    field State.record (exec (.encode [0x22, 0x07, 0x00]) idle) =
      some (okRecord [0x02, 0x03, 0x22, 0x07, 0x00, 0x71, 0x31, 0x03]) ∧
    field State.crc (exec (.encode [0x22, 0x07, 0x00]) idle) = some 0x7131 ∧
    field State.txbuf (exec (.encode [0x22, 0x07, 0x00]) idle) = some [(0, 0x22), (1, 0x07)] := by decide +kernel

/-- V-E11, V-E12: the headers of the last short frame and the first long one. -/
theorem test_encode_length_boundary :
    (encodeFrame cfg ((List.range 127).map (BitVec.ofNat 8))).take 2 = [0x02, 0x7F] ∧
    (encodeFrame cfg ((List.range 128).map (BitVec.ofNat 8))).take 3 = [0x02, 0x80, 0x80] := by decide +kernel

/-- V-F6, V-F4, V-F9, V-F18: the record's fields and the bytes used. -/
theorem test_decode_buffers :
    (decodeBuffer cfg Framer.reset [0xFF, 0xFE, 0x02, 0x01, 0x04, 0x40, 0x84, 0x03, 0x99]).map Prod.snd =
      some ⟨.ok, .none, false, false, [0x04], 8⟩ ∧
    (decodeBuffer cfg Framer.reset [0x02, 0x80, 0x01, 0x04, 0x40, 0x84, 0x03]).map Prod.snd =
      some ⟨.ok, .none, false, false, [0x04], 7⟩ ∧
    (decodeBuffer cfg Framer.reset [0x02, 0x01, 0x02, 0x01, 0x04, 0x40, 0x84, 0x03]).map Prod.snd =
      some ⟨.absent, .frameError, true, true, [], 6⟩ ∧
    (decodeBuffer cfg Framer.reset [0x02, 0x01, 0x04, 0x40]).map Prod.snd =
      some ⟨.absent, .incomplete, false, false, [], 4⟩ := by decide

/-- P8 rows 2 and 3, `crc` untouched. -/
theorem test_decode_operation :
    field State.record (exec (.decode [0x02, 0x03, 0x22, 0x07, 0x00, 0x71, 0x31, 0x03]) idle) =
      some (okRecord [0x22, 0x07, 0x00]) ∧
    seen (exec (.decode [0x02, 0x03, 0x22, 0x07, 0x01, 0x71, 0x31, 0x03]) { idle with crc := 0x7131 }) =
      some (0x00, frameErrorRecord true false, [.result (frameErrorRecord true false)]) ∧
    field State.crc (exec (.decode [0x02, 0x03, 0x22, 0x07, 0x01, 0x71, 0x31, 0x03]) { idle with crc := 0x7131 }) =
      some 0x7131 := by decide +kernel

/-! ## The correlator -/

/-- V-K1, V-K6. -/
theorem test_connect :
    seen (exec .connect idle) = some (0x06, okRecord [], [.openReq]) ∧
    seen (exec .connect ready) = some (0x06, okRecord [], [.closeReq, .openReq]) := by decide

/-- V-K7. -/
theorem test_disconnect :
    seen (exec .disconnect ready) = some (0x00, okRecord [], [.closeReq, .result (okRecord [])]) ∧
    seen (exec .disconnect idle) = some (0x00, okRecord [], [.result (okRecord [])]) := by decide

/-- P3 rows 4 and 12. -/
theorem test_sendCommand :
    seen (exec (.sendCommand 0x22 [0x07, 0x00] false 3) ready) =
      some (0x13, okRecord [], [.tx [0x02, 0x03, 0x22, 0x07, 0x00, 0x71, 0x31, 0x03]]) ∧
    field State.tLat (exec (.sendCommand 0x22 [0x07, 0x00] false 3) ready) = some 3 ∧
    seen (exec (.sendCommand 0x22 [0x08, 0x00] false 3) idle) =
      some (0x00, absentRecord .notConnected, [.result (absentRecord .notConnected)]) := by decide +kernel

/-- P2 row 4, V-K10. -/
theorem test_readOne :
    seen (exec (.readOne false 4) ready) = some (0x17, okRecord [], []) ∧
    field State.timer (exec (.readOne true 4) ready) = some 10 ∧
    seen (exec (.readOne false 0) ready) = some (0x0D, absentRecord .timeout, [.result (absentRecord .timeout)]) := by
  decide

/-- P4 row 5. -/
theorem test_xmit :
    seen (exec (.xmit [0x5D, 0x00]) ready) =
      some (0x0D, okRecord [], [.tx [0x02, 0x02, 0x5D, 0x00, 0x78, 0xE3, 0x03], .result (okRecord [])]) := by
  decide +kernel

/-- P4 row 8. -/
theorem test_flush : seen (exec .flush ready) = some (0x13, okRecord [], []) := by decide

/-- P4 row 10, V-K17. -/
theorem test_rawDrain :
    seen (exec (.rawDrain 6 2) ready) = some (0x1B, okRecord [], []) ∧
    field State.timer2 (exec (.rawDrain 6 2) ready) = some 2 ∧
    seen (exec (.rawDrain 0 5) ready) = some (0x0D, okRecord [], [.result (okRecord [])]) := by decide

/-- V-K9. -/
theorem test_reserved :
    ∀ i ∈ [Instr.reserved0, .reservedD, .reservedE, .reservedF], seen (exec i ready) =
      some (0x0D, absentRecord .illegalOp, [.result (absentRecord .illegalOp)]) := by decide

/-- R231's codes as CAUSE shows them: P8's end state, and P2's. -/
theorem test_cause_codes :
    field causeRegister (exec .reservedF idle) = some 5 ∧ field causeRegister (exec (.readOne false 0) ready) = some 1 ∧
    field causeRegister (exec .crcInit ready) = some 0 := by decide +kernel

/-- R181: a busy port holds the operation. -/
theorem test_busy_port_holds :
    field State.held (exec .flush (at_ .awaiting .readOne)) = some [.flush] ∧
    seen (exec .reservedF (at_ .opening .connect)) = some (0x06, okRecord [], []) := by decide

/-! ## Events -/

/-- V-K22, V-K23. -/
theorem test_reset :
    seen (exec .reset (midFrame .sendCommand)) = some (0x00, okRecord [], [.closeReq]) ∧
    seen (exec .reset { idle with record := absentRecord .timeout }) = some (0x00, okRecord [], []) := by decide

/-- P1 row 8; V-K20's fourth byte. -/
theorem test_rxByte :
    seen (exec (.rxByte 0x02) (at_ .awaiting .readOne)) = some (0x37, okRecord [], []) ∧
    field State.record (exec (.rxByte 0x6C)
      { at_ .rawRead .rawDrain with dLen := 3, dbuf := [(0, 0x02), (1, 0x01), (2, 0x60)] }) =
      some (okRecord [0x02, 0x01, 0x60, 0x6C]) := by decide

/-- A verdict that ends a read: V-K13 and V-K12, the stop byte. -/
theorem test_rxByte_verdict :
    let f : Framer := ⟨.readStop, false, false, 1, 1, 0x4084, 0xC084, [(0, 0x04)]⟩
    seen (exec (.rxByte 0xFF) { at_ .awaiting .readOne with framer := f }) =
      some (0x0D, frameErrorRecord true true, [.result (frameErrorRecord true true)]) ∧
    seen (exec (.rxByte 0xFF) { at_ .awaiting .sendCommand with framer := f }) =
      some (0x00, frameErrorRecord true true, [.closeReq, .result (frameErrorRecord true true)]) := by decide

/-- V-K16. -/
theorem test_rxError :
    seen (exec .rxError (midFrame .readOne)) =
      some (0x00, absentRecord .transportError, [.closeReq, .result (absentRecord .transportError)]) := by
  decide

/-- P1 row 6, V-K11, P4 row 9. -/
theorem test_txDrained :
    seen (exec .txDrained { at_ .txWait .sendCommand with tLat := 5 }) = some (0x17, okRecord [], []) ∧
    seen (exec .txDrained { at_ .txWait .sendCommand with tLat := 0 }) =
      some (0x00, absentRecord .timeout, [.closeReq, .result (absentRecord .timeout)]) ∧
    seen (exec .txDrained (at_ .txWait .flush)) = some (0x0D, okRecord [], [.result (okRecord [])]) := by decide

/-- V-K14. -/
theorem test_txError :
    seen (exec .txError (at_ .txWait .flush)) =
      some (0x00, absentRecord .transportError, [.closeReq, .result (absentRecord .transportError)]) := by
  decide

/-- V-K5 at OPEN_OK; V-K3. -/
theorem test_openOk :
    seen (exec .openOk { at_ .opening .connect with cfg := { cfg with authEn := true, authLine := [0x54, 0x0A] } }) =
      some (0x0A, okRecord [], [.tx [0x54, 0x0A]]) ∧
    seen (exec .openOk { at_ .opening .connect with cfg := { cfg with settleTicks := 0 } }) =
      some (0x0D, okRecord [], [.result (okRecord [])]) := by decide

/-- V-K2. -/
theorem test_openFail :
    seen (exec .openFail (at_ .opening .connect)) =
      some (0x00, absentRecord .transportError, [.result (absentRecord .transportError)]) := by decide

/-- V-K4's last TICK, P3 row 11, P2 row 25. -/
theorem test_tick :
    seen (exec .tick { at_ .settling .connect with timer := 1 }) = some (0x0D, okRecord [], [.result (okRecord [])]) ∧
    seen (exec .tick { midFrame .sendCommand with timer := 1 }) =
      some (0x00, absentRecord .timeout, [.closeReq, .result (absentRecord .timeout)]) ∧
    seen (exec .tick { midFrame .readOne with timer := 1 }) =
      some (0x0D, absentRecord .timeout, [.result (absentRecord .timeout)]) := by decide

/-- P4 rows 15, 19 and 22. -/
theorem test_tick_in_a_drain :
    let s := { at_ .rawRead .rawDrain with dbuf := [(0, 0x02), (1, 0x01), (2, 0x60)], perRead := 2 }
    field State.timer2 (exec .tick { s with timer := 4, timer2 := 1, dLen := 2 }) = some 2 ∧
    field State.record (exec .tick { s with timer := 1, timer2 := 2, dLen := 3 }) = some (okRecord [0x02, 0x01, 0x60]) ∧
    seen (exec .tick { s with timer := 5, timer2 := 1, dLen := 0 }) =
      some (0x0D, okRecord [], [.result (okRecord [])]) := by
  decide

/-! ## Wire formats and commands as inputs -/

/-- V-K26: the empty frame; V-K12: both checks fail. -/
theorem test_frameS :
    seen (exec (.frameS [] 0x0000 0x03) (at_ .awaiting .sendCommand)) =
      some (0x0D, okRecord [], [.result (okRecord [])]) ∧
    field State.record (exec (.frameS [0x04] 0xC084 0xFF) (at_ .awaiting .sendCommand)) =
      some (frameErrorRecord true true) := by decide

/-- V-F4 on the live stream: the long form of length 1. -/
theorem test_frameL :
    field State.record (exec (.frameL [0x04] 0x4084 0x03) (at_ .awaiting .readOne)) = some (okRecord [0x04]) := by
  decide

/-- R151's example `05`; R152's example `83 E8`. -/
theorem test_lenS_lenL :
    field (fun s => (s.framer.len, s.framer.state)) (exec (.lenS 5) atLength) = some (5, .readPayload) ∧
    field (fun s => (s.framer.len, s.framer.state)) (exec (.lenL 1000) atLength) = some (1000, .readPayload) ∧
    field (fun s => (s.framer.len, s.framer.state)) (exec (.lenL 0) atLength) = some (0, .readCrc) := by decide

/-- V-E2 to V-E7: the requests of the six commands. -/
theorem test_command_requests :
    field State.out (exec .fwVersion ready) = some [.tx [0x02, 0x01, 0x00, 0x00, 0x00, 0x03]] ∧
    field State.out (exec (.getValues []) ready) = some [.tx [0x02, 0x01, 0x04, 0x40, 0x84, 0x03]] ∧
    field State.out (exec (.forwardCan 0x07 [0x00]) ready) =
      some [.tx [0x02, 0x03, 0x22, 0x07, 0x00, 0x71, 0x31, 0x03]] ∧
    field State.out (exec .pingCan ready) = some [.tx [0x02, 0x01, 0x3E, 0xD7, 0x9D, 0x03]] ∧
    field State.out (exec (.getCustomConfig 0x00) ready) = some [.tx [0x02, 0x02, 0x5D, 0x00, 0x78, 0xE3, 0x03]] ∧
    field State.out (exec .bmsGetValues ready) = some [.tx [0x02, 0x01, 0x60, 0x6C, 0xA6, 0x03]] := by decide +kernel

/-! ## The transport's turn -/

/-- R40: a byte that waits is taken when a read begins. -/
theorem test_pending_byte_is_raised :
    seen (step { at_ .awaiting .readOne with net := ⟨[], [], [0x02, 0x01], false, false⟩ }) =
      some (0x37, okRecord [], []) ∧
    field (fun s => s.net.rxPending)
      (step { at_ .awaiting .readOne with net := ⟨[], [], [0x02, 0x01], false, false⟩ }) = some [0x01] := by decide

/-- R53: a latched write failure is raised in the next write wait. -/
theorem test_latched_write_failure :
    field State.record (step { at_ .txWait .flush with net := ⟨[], [0x02], [], false, true⟩ }) =
      some (absentRecord .transportError) := by decide

/-- R207: nothing undrained is reported at once. -/
theorem test_flush_with_nothing_undrained :
    seen (step (at_ .txWait .flush)) = some (0x0D, okRecord [], [.result (okRecord [])]) := by decide

/-! ## Witnesses: the hypotheses of the obligations can be met -/

/-- A framer in `READ_STOP` behind the payload `04` with the CRC field `c`. -/
def atStop (c : U16) : Framer := ⟨.readStop, false, false, 1, 1, 0x4084, c, [(0, 0x04)]⟩

/-- A 128-byte payload, the shortest of the long form. -/
def longOne : List Byte := List.replicate 128 0x41

theorem witness_CrcInitSetsZero : hostReady idle = true ∧ hostReady ready = true := by decide

theorem witness_CrcByteUpdates : hostReady idle = true ∧ idle.crc = 0x0000#16 := by decide

theorem witness_Crc16IsInitThenBytes : hostReady ready = true := by decide

theorem witness_CrcAlgebra : [0x22#8, 0x07#8, 0x00#8].length = [0x60#8, 0x01#8, 0x00#8].length := by decide

theorem witness_CrcDetectsEverySingleBit : 1 < [0x60#8, 0xAA#8].length ∧ 7 < 8 := by decide

theorem witness_EncodeReturnsTheFrame :
    hostReady idle = true ∧ idle.txbuf.wf = true ∧ ([] : List Byte).length ≤ 32767 ∧ longOne.length ≤ 32767 ∧
    ¬ longOne.length < 128 := by decide +kernel

theorem witness_EncodedFrameHasTheFormat :
    (longOne.drop 1).length < 128 ∧ ¬ longOne.length < 128 ∧ longOne.length ≤ 32767 := by decide +kernel

theorem witness_LengthFieldReadsBack : 32767 ≤ 32767 ∧ (0x7F#8).msb = false ∧ (0x80#8).msb = true := by decide

theorem witness_FramerStepTable_before_payload :
    Framer.reset.state = .seekStart ∧ (0xAA#8) ≠ cfg.startMarker ∧ (0x02#8) = cfg.startMarker ∧
    atLength.framer.state = .readLength ∧ atLength.framer.len2 = false ∧ (0x7F#8).msb = false ∧ (0x7F#8) ≠ 0#8 ∧
    (0x80#8).msb = true ∧ { atLength.framer with len2 := true }.len2 = true := by decide

theorem witness_FramerStepTable_payload :
    let f := (midFrame .readOne).framer
    f.state = .readPayload ∧ f.rxbuf.wf = true ∧ f.cnt.toNat + 1 = f.len.toNat ∧
    { f with cnt := 0 }.cnt.toNat + 1 < f.len.toNat := by decide

theorem witness_FramerStepTable_checks :
    { atStop 0 with state := .readCrc }.crcidx = false ∧ { atStop 0 with crcidx := true }.crcidx = true ∧
    (atStop 0x4084).state = .readStop ∧ (atStop 0x4084).rxcrc = (atStop 0x4084).crc ∧ (0x03#8) = cfg.stopMarker ∧
    (atStop 0xC084).rxcrc ≠ (atStop 0xC084).crc := by decide

theorem witness_DecodeOfEncodeIsThePayload : (atStop 0).rxbuf.wf = true ∧ longOne.length ≤ 32767 := by decide +kernel

theorem witness_ResynchronizesAfterStartFreeGarbage :
    Framer.reset.rxbuf.wf = true ∧ [0x04#8].length ≤ 32767 ∧ ∀ b ∈ [0xAA#8, 0x55#8], b ≠ cfg.startMarker := by decide

theorem witness_DecodeCatchesEverySingleBit :
    Framer.reset.rxbuf.wf = true ∧ [0x04#8].length ≤ 32767 ∧ 7 < 8 ∧
    (if [0x04#8].length < 128 then 2 else 3) ≤ 4 ∧ 4 < (if [0x04#8].length < 128 then 2 else 3) + [0x04#8].length + 2 ∧
    (if longOne.length < 128 then 2 else 3) ≤ 3 ∧ 132 < (if longOne.length < 128 then 2 else 3) + longOne.length + 2 := by
  decide +kernel

theorem witness_DecodeCompletesOnEveryBuffer : hostReady idle = true := by decide

theorem witness_ConnectOpensATransport : idle.cState = .disconnected ∧ ready.cState = .ready := by decide

theorem witness_DisconnectIsIdempotent :
    hostReady ready = true ∧ ready.cState = .ready ∧ idle.cState = .disconnected ∧
    hostReady (at_ .awaiting .readOne) = false ∧ ∃ t, exec .disconnect ready = .next t :=
  ⟨rfl, rfl, rfl, rfl, _, rfl⟩

theorem witness_OpenOkWithoutSettleCompletes :
    (at_ .opening .connect).cState = .opening ∧
    { cfg with settleTicks := 0, authEn := true }.settleTicks = 0#32 ∧ cfg.authEn = false := by decide

theorem witness_SettleWaitLastsItsTicks :
    let s := at_ .opening .connect
    s.cState = .opening ∧ s.cfg.settleTicks ≠ 0#32 ∧ 0 < s.cfg.settleTicks.toNat ∧ 1 < s.cfg.settleTicks.toNat ∧
    2 = s.cfg.settleTicks.toNat ∧ s.cfg.authEn = false ∧ { s.cfg with authEn := true }.authEn = true := by decide

theorem witness_OpenFailReportsTransportError : (at_ .opening .connect).cState = .opening := by decide

theorem witness_RequestsAreSentAsFrames :
    ready.cState = .ready ∧ ready.connected = true ∧ ready.txbuf.wf = true ∧
    ∀ i ∈ [Instr.sendCommand 0x22 [0x07, 0x00] true 3, .fwVersion, .getValues [1], .forwardCan 0x07 [0x00], .pingCan,
      .getCustomConfig 0x00, .bmsGetValues], i.wf ready.cfg.drainMax = true ∧ (requestOf ready.cfg i).isSome := by
  decide

theorem witness_DrainContinuesTheOperation :
    let s := { at_ .txWait .sendCommand with tLat := 5 }
    s.cState = .txWait ∧ s.cOp = .sendCommand ∧ s.tLat ≠ 0#32 ∧ { s with tLat := 0 }.tLat = 0#32 ∧
    (at_ .txWait .flush).cState = .txWait ∧ (at_ .txWait .flush).cOp = .flush := by decide

theorem witness_AwaitingTakesTheByte :
    let s := { at_ .awaiting .sendCommand with framer := atStop 0x4084 }
    s.cState = .awaiting ∧ s.net.rxPending = [] ∧ FramerInv s.framer ∧ FramerInv Framer.reset ∧
    (framerStep s.cfg s.framer 0x03).map Prod.snd = some (.accept [0x04]) ∧
    (framerStep s.cfg s.framer 0x04).map Prod.snd = some (.reject false true) ∧
    (framerStep s.cfg Framer.reset 0x02).map Prod.snd = some .pending ∧ s.cOp = .sendCommand ∧
    (at_ .awaiting .readOne).cOp ≠ .sendCommand := by decide

theorem witness_DeadlineExpiresAtItsTick :
    (at_ .awaiting .sendCommand).cState = .awaiting ∧ 1 ≤ 2 ∧ 2 < (at_ .awaiting .sendCommand).timer.toNat ∧
    3 = (at_ .awaiting .sendCommand).timer.toNat ∧ (at_ .awaiting .sendCommand).cOp = .sendCommand ∧
    (at_ .awaiting .readOne).cOp ≠ .sendCommand := by decide

theorem witness_ReadOneArmsTheDeadline :
    ready.cState = .ready ∧ ready.connected = true ∧
    (if true then ready.cfg.defaultTimeoutTicks else 0#32) ≠ 0#32 ∧
    (if false then ready.cfg.defaultTimeoutTicks else 0#32) = 0#32 := by decide

theorem witness_XmitWritesAndCompletes :
    ready.cState = .ready ∧ ready.connected = true ∧ ready.txbuf.wf = true ∧ [0x5D#8, 0x00#8].length ≤ 32767 := by
  decide

theorem witness_FlushWaitsForTheDrain : ready.cState = .ready ∧ ready.connected = true := by decide

theorem witness_RawDrainStarts :
    ready.cState = .ready ∧ ready.connected = true ∧ (6#32) ≠ 0#32 ∧ (0#32) = 0#32 := by decide

theorem witness_RawReadStoresTheByte :
    let s := { at_ .rawRead .rawDrain with dLen := 2, dbuf := [(0, 0x02), (1, 0x01)] }
    s.cState = .rawRead ∧ s.net.rxPending = [] ∧ s.dbuf.wf = true ∧ s.dLen < s.cfg.drainMax ∧
    s.dLen + 1 < s.cfg.drainMax ∧ { s with dLen := 3 }.dLen + 1 = s.cfg.drainMax := by decide

theorem witness_RawReadTick :
    let s := at_ .rawRead .rawDrain
    s.cState = .rawRead ∧ s.dLen ≤ s.cfg.drainMax ∧ { s with timer := 1 }.timer.toNat ≤ 1 ∧ 1 < s.timer.toNat ∧
    { s with timer2 := 1 }.timer2.toNat ≤ 1 ∧ 0 < { s with dLen := 1 }.dLen ∧ s.dLen = 0 ∧ 1 < s.timer2.toNat := by
  decide

theorem witness_SilentDrainEnds :
    ready.cState = .ready ∧ ready.connected = true ∧ (5#32) ≠ 0#32 ∧
    0 < min (5#32).toNat (max (0#32).toNat 1) ∧ 1 = min (5#32).toNat (max (0#32).toNat 1) ∧
    5 = min (5#32).toNat (max (9#32).toNat 1) := by decide

theorem witness_TransportErrorTearsDown :
    (at_ .txWait .flush).cState = .txWait ∧ (midFrame .readOne).cState = .awaiting ∧
    (at_ .rawRead .rawDrain).cState = .rawRead := by decide

theorem witness_DisabledEventsWaitInTheTransport :
    ready.cState ≠ .awaiting ∧ ready.cState ≠ .rawRead ∧ ready.cState ≠ .txWait ∧ ready.cState ≠ .opening ∧
    ready.cState ≠ .settling := by decide

theorem witness_PendingBytesAreTakenFirst :
    let s := { at_ .awaiting .readOne with net := ⟨[], [], [0x02, 0x01], false, false⟩ }
    s.cState = .awaiting ∧ s.net.rxPending = 0x02#8 :: [0x01#8] ∧ (at_ .rawRead .rawDrain).cState = .rawRead := by
  decide

theorem witness_NotConnectedIsReported :
    hostReady idle = true ∧ idle.connected = false ∧
    ∀ i ∈ [Instr.sendCommand 0 [] true 0, .readOne false 0, .xmit [0x60], .flush, .rawDrain 6 2, .pingCan],
      needsConnection i = true := by decide

theorem witness_ReservedSelectsAreRefused :
    hostReady ready = true ∧ hostReady (at_ .txWait .flush) = false := by decide

theorem witness_BusyPortHoldsTheOperation :
    hostReady (at_ .settling .connect) = false ∧ isHostOperation (.encode [0x04]) = true := by decide

theorem witness_HeldOperationIsAcceptedFirst :
    let s := { ready with held := [.flush, .connect] }
    hostReady s = true ∧ s.held = .flush :: [.connect] := by decide

theorem witness_WireRowsAreTheirBytes :
    wireBytes ready.cfg (.lenL 1000) = some [0x83, 0xE8] ∧ ∃ t, exec (.lenL 1000) ready = .next t := ⟨rfl, _, rfl⟩

theorem witness_ArrivingFrameEndsTheRead :
    let s := at_ .awaiting .sendCommand
    [0x04#8].length < 128 ∧ longOne.length ≤ 32767 ∧ s.cState = .awaiting ∧ FramerIdle s.framer ∧
    s.framer.rxbuf.wf = true ∧ s.net.rxPending = [] ∧ (0x4084#16) = crc16 [0x04] ∧ (0x03#8) = s.cfg.stopMarker ∧
    ¬((0x4085#16) = crc16 [0x04] ∧ (0x03#8) = s.cfg.stopMarker) ∧ s.cOp = .sendCommand ∧
    (at_ .awaiting .readOne).cOp ≠ .sendCommand := by decide +kernel

theorem witness_WireRowsWaitOutsideReads :
    wireBytes ready.cfg (.lenS 5) = some [0x05] ∧ ready.cState ≠ .awaiting ∧ ready.cState ≠ .rawRead := by decide

theorem witness_LengthFieldSetsTheLength :
    atLength.cState = .awaiting ∧ atLength.net.rxPending = [] ∧ atLength.framer.state = .readLength ∧
    atLength.framer.len2 = false ∧ (5#15) = (5#7).setWidth 15 ∧ (5#15) ≠ 0 ∧ (0#15) = (0#7).setWidth 15 := by decide

theorem witness_ResetEventClears :
    (at_ .opening .connect).cState ≠ .disconnected ∧ idle.cState = .disconnected := by decide

theorem witness_ConfigurationIsConstant : ∃ t, step ready = .next t := ⟨_, rfl⟩

theorem witness_ReceivingNeverWritesCrc :
    writesCrc (.rxByte 0x02) = false ∧ ∃ t, exec (.rxByte 0x02) (at_ .awaiting .readOne) = .next t := ⟨rfl, _, rfl⟩

theorem witness_ConnectedRisesOnlyAfterTheSettleWait :
    let s := { at_ .settling .connect with timer := 1, inputs := [⟨.event, [7]⟩] }
    s.connected = false ∧ field State.connected (step s) = some true := by decide

theorem witness_TxGrowsByWholeFrames :
    let s := { ready with inputs := [⟨.host, [0x08, 0, 1, 0x60]⟩] }
    BlockInv s ∧ field (fun t => t.net.tx) (step s) = some [0x02, 0x01, 0x60, 0x6C, 0xA6, 0x03] := by decide

theorem witness_CorrelatorMovesByTheTable :
    let s := { ready with inputs := [⟨.host, [0x09]⟩] }
    BlockInv s ∧ field State.cState (step s) = some .txWait := by decide

/-- Both clauses: with nothing pending, and with the pushed frame of P6 pending before a reply. -/
theorem witness_NextFrameIsTheResponse :
    let s := { ready with net := ⟨[], [], [0x02, 0x02, 0x04, 0x11, 0xCE, 0xD4, 0x03, 0x02, 0x03], false, false⟩ }
    ready.cState = .ready ∧ ready.connected = true ∧ FramerIdle ready.framer ∧ ready.txbuf.wf = true ∧
    ready.framer.rxbuf.wf = true ∧ ready.net.rxPending = [] ∧ ([] : List Byte).length ≤ 32766 ∧
    (if true then ready.cfg.defaultTimeoutTicks else 0#32) ≠ 0#32 ∧ [0x04#8, 0x11#8].length < 128 ∧
    crc16 [0x04, 0x11] = 0xCED4 ∧ s.cState = .ready ∧ s.inputs = [] ∧ s.net.rxFailed = false ∧ s.net.txFailed = false ∧
    wireBytes s.cfg (.frameS [0x04, 0x11] 0xCED4 0x03) = some [0x02, 0x02, 0x04, 0x11, 0xCE, 0xD4, 0x03] ∧
    s.net.rxPending = [0x02, 0x02, 0x04, 0x11, 0xCE, 0xD4, 0x03] ++ [0x02, 0x03] := by decide +kernel

theorem witness_SendCommandIsXmitFlushRead :
    ready.cState = .ready ∧ ready.connected = true ∧ ready.txbuf.wf = true ∧ [0x07#8].length ≤ 32766 ∧
    (if true then ready.cfg.defaultTimeoutTicks else 0#32) ≠ 0#32 ∧
    (if false then ready.cfg.defaultTimeoutTicks else 3#32) ≠ 0#32 ∧
    (if false then ready.cfg.defaultTimeoutTicks else 0#32) = 0#32 := by decide

/-- Each clause: bytes and failures kept in a read wait, in `TX_WAIT`, and a state that waits on neither. -/
theorem witness_TransportRaisesWhatItKept :
    let s := at_ .awaiting .readOne
    let kept (rx : List Byte) (r t : Bool) : State := { s with net := ⟨[], [], rx, r, t⟩ }
    s.inputs = [] ∧ hostReady s = false ∧ s.cState = .awaiting ∧ (at_ .rawRead .rawDrain).cState = .rawRead ∧
    s.net.rxFailed = false ∧ s.net.txFailed = false ∧ s.net.rxPending = [] ∧
    (kept [0x02] false false).net.rxPending = [0x02#8] ∧
    (kept [0x02, 0x01] true false).net.rxPending = 0x02#8 :: [0x01#8] ∧
    (kept [] true false).net.rxFailed = true ∧ (kept [] false true).net.txFailed = true ∧
    (at_ .txWait .flush).cState = .txWait ∧ (at_ .txWait .flush).net.undrained = [] ∧
    { (at_ .txWait .flush).net with undrained := [0x02#8] }.undrained ≠ [] ∧
    hostReady ready = true ∧ ready.held = [] ∧ ready.cState ≠ .awaiting ∧ ready.cState ≠ .rawRead ∧
    ready.cState ≠ .txWait := by decide

/-- In the middle of a frame, with a byte presented: the invariant holds and the step goes on. -/
theorem witness_StepKeepsTheInvariant :
    let s := { midFrame .sendCommand with inputs := [⟨.event, [1, 0x05]⟩] }
    BlockInv s ∧ field (fun t => t.framer.state) (step s) = some .readCrc := by decide

theorem witness_NothingStopsTheBlock :
    BlockInv (midFrame .readOne) ∧ Instr.wf (midFrame .readOne).cfg.drainMax (.decode [0x02]) = true := by
  decide

theorem witness_EveryInputReadsBack :
    Instr.wf 1 (.sendCommand 0x22 [0x07, 0x00] false 3) = true ∧ Instr.wf 1 (.frameS [] 0 0x03) = true := by decide

theorem witness_StepRunsTheDecodedInput :
    let s := { ready with inputs := [⟨.host, [0x09]⟩] }
    s.inputs = ⟨.host, [0x09]⟩ :: [] ∧ s.held = [] ∧ decode .host [0x09] = .ok (.flush, []) ∧
    Instr.wf s.cfg.drainMax .flush = true ∧ decode .host [0x10] = .error .selectTooWide := by decide

/-- A buffer over the operand limit decodes, and is not well-formed: the clause of StepRunsTheDecodedInput that
refuses it. -/
theorem witness_StepRunsTheDecodedInput_over_the_limit :
    let buf : List Byte := List.replicate 32774 0
    decode .host (0x03 :: 0x80 :: 0x06 :: buf) = .ok (.decode buf, []) ∧
    (Instr.decode buf).wf ready.cfg.drainMax = false := by
  have key : ∀ buf : List Byte, buf.length = 32774 →
      decode .host (0x03 :: 0x80 :: 0x06 :: buf) = .ok (.decode buf, []) := by
    intro buf h
    have e : takeString 65535 (0x80 :: 0x06 :: buf) = .ok (buf, []) := by
      have : BitVec.toNat (0x80 : Byte) * 256 + BitVec.toNat (0x06 : Byte) = buf.length := by rw [h]; rfl
      simp only [takeString]
      rw [this, if_pos (by omega), takeBytes, if_pos (Nat.le_refl _), List.take_length, List.drop_length]
    show (takeString 65535 (0x80 :: 0x06 :: buf) >>= fun x => Except.ok (Instr.decode x.1, x.2)) = _
    rw [e]
    rfl
  refine ⟨key _ List.length_replicate, ?_⟩
  simp only [Instr.wf, List.length_replicate]
  decide

end Sys2Proof.Tests
end

section
/-! What a step ends in (R10): a postcondition of an outcome, with one rule for each shared operation. -/

namespace Sys2Proof.Machine

/-- `EndsIn P r`: if the outcome `r` is a next state, it satisfies `P`. -/
def EndsIn (P : State → Prop) (r : StepResult) : Prop := ∀ t, r = .next t → P t

variable {P : State → Prop}

@[simp] theorem endsIn_next {t : State} : EndsIn P (.next t) ↔ P t := by simp [EndsIn]

@[simp] theorem endsIn_fault (f : Fault) : EndsIn P (.fault f) := fun _ h => nomatch h

@[simp] theorem endsIn_refused (r : Refusal) : EndsIn P (.refused r) := fun _ h => nomatch h

/-- The host port takes the operation or holds it (R181). -/
theorem endsIn_onHostPort {i : Instr} {s : State} {k : State → StepResult}
    (held : P (s.begin.hold i)) (taken : EndsIn P (k s.begin)) : EndsIn P (onHostPort i s k) := by
  obtain ⟨-, h⟩ | ⟨-, h⟩ := onHostPort_cases i s k
  · rwa [h]
  · rwa [h, endsIn_next]

/-- An operation that needs the transport is taken, reported as not connected, or held (R181, R183). -/
theorem endsIn_onConnection {i : Instr} {s : State} {k : State → StepResult}
    (held : P (s.begin.hold i)) (notConnected : P (s.begin.completeAbsent .notConnected))
    (taken : EndsIn P (k s.begin)) : EndsIn P (onConnection i s k) := by
  obtain ⟨-, -, h⟩ | ⟨-, -, h⟩ | ⟨-, h⟩ := onConnection_cases i s k
  · rwa [h]
  · rwa [h, endsIn_next]
  · rwa [h, endsIn_next]

/-- Only an access inside the buffer goes on (R55). -/
theorem endsIn_orBounds {b : Buffer} {i : Nat} {α : Type} {x : Option α} {k : α → StepResult}
    (inside : ∀ a, x = some a → EndsIn P (k a)) : EndsIn P (orBounds b i x k) := by
  intro t h
  obtain ⟨a, ha, hk⟩ := orBounds_next h
  exact inside a ha t hk

/-- What the arrival of every byte keeps, the arrival of several keeps. -/
theorem endsIn_receiveBytes (keep : ∀ b s, P s → EndsIn P (receiveByte b s)) (bs : List Byte) {s : State}
    (hs : P s) : EndsIn P (receiveBytes bs s) := by
  induction bs generalizing s with
  | nil => rwa [receiveBytes_nil, endsIn_next]
  | cons b bs ih =>
    intro u hu
    obtain ⟨t, hb, hbs⟩ := receiveBytes_cons_next hu
    exact ih (keep b s hs t hb) u hbs

end Sys2Proof.Machine
end

section
/-! The configuration is constant (R31): every named operation, every input and the transport's turn leave it as it
was. -/

namespace Sys2Proof.Machine

/-- The outcome `r` of something done in `s` has the configuration of `s`. -/
abbrev KeepsCfg (s : State) (r : StepResult) : Prop := EndsIn (fun t => t.cfg = s.cfg) r

/-! ## The correlator's operations -/

@[simp] theorem awaitFail_cfg (ca : Cause) (c t : Bool) (s : State) : (awaitFail ca c t s).cfg = s.cfg := by
  by_cases h : s.cOp = .sendCommand
  · simp [awaitFail_sendCommand h]
  · simp [awaitFail_other h]

@[simp] theorem armAwait_cfg (t : U32) (s : State) : (armAwait t s).cfg = s.cfg := by
  by_cases h : t = 0#32
  · simp [h, armAwait_zero]
  · simp [armAwait_pos h]

/-- What follows the copy to `TXBUF` and the encoder (R131) finds the configuration unchanged. -/
theorem copy_encode_keepsCfg {p : List Byte} {s : State} {k : State → List Byte → StepResult}
    (hk : ∀ t frame, t.cfg = s.cfg → KeepsCfg s (k t frame)) :
    KeepsCfg s (copyToTxbuf p s fun t => runEncode p t k) :=
  endsIn_orBounds fun _ _ => endsIn_orBounds fun _ _ => hk _ _ rfl

theorem sendRequest_keepsCfg (p : List Byte) (timeout : U32) (s : State) : KeepsCfg s (sendRequest p timeout s) :=
  copy_encode_keepsCfg fun _ _ ht => endsIn_next.2 ht

/-! ## Bytes from the peer -/

theorem awaitingByte_keepsCfg (b : Byte) (s : State) : KeepsCfg s (awaitingByte b s) := by
  refine endsIn_orBounds fun r _ => ?_
  obtain ⟨f, v⟩ := r
  cases v with
  | pending | accept _ | reject _ _ => simp

theorem drainDone_keepsCfg (s : State) : KeepsCfg s (drainDone s) := endsIn_orBounds fun _ _ => endsIn_next.2 rfl

theorem rawByte_keepsCfg (b : Byte) (s : State) : KeepsCfg s (rawByte b s) := by
  refine endsIn_orBounds fun m _ => ?_
  split
  · exact drainDone_keepsCfg _
  · simp

theorem takeRx_keepsCfg (b : Byte) (s : State) : KeepsCfg s (takeRx b s) := by
  unfold takeRx
  cases s.cState with
  | awaiting => exact awaitingByte_keepsCfg b s
  | rawRead => exact rawByte_keepsCfg b s
  | disconnected | opening | settling | ready | txWait => simp

theorem receiveByte_keepsCfg (b : Byte) (s : State) : KeepsCfg s (receiveByte b s) := by
  obtain ⟨-, h⟩ | ⟨-, -, h⟩ | ⟨x, rest, -, -, h⟩ := receiveByte_cases b s
  · simp [h]
  · rw [h]
    exact takeRx_keepsCfg b s
  · rw [h]
    exact takeRx_keepsCfg x _

theorem receiveBytes_keepsCfg (bs : List Byte) (s : State) : KeepsCfg s (receiveBytes bs s) :=
  endsIn_receiveBytes (fun b t ht => ht ▸ receiveByte_keepsCfg b t) bs rfl

/-! ## Host operations -/

theorem execEncode_keepsCfg (p : List Byte) (s : State) : KeepsCfg s (execEncode p s) :=
  endsIn_onHostPort rfl (copy_encode_keepsCfg fun _ _ ht => endsIn_next.2 ht)

theorem execDecode_keepsCfg (buf : List Byte) (s : State) : KeepsCfg s (execDecode buf s) :=
  endsIn_onHostPort rfl (endsIn_orBounds fun _ _ => endsIn_next.2 rfl)

theorem execConnect_keepsCfg (s : State) : KeepsCfg s (execConnect s) := by
  refine endsIn_onHostPort rfl ?_
  split <;> simp

theorem execDisconnect_keepsCfg (s : State) : KeepsCfg s (execDisconnect s) := by
  refine endsIn_onHostPort rfl ?_
  split <;> simp

theorem execSendCommand_keepsCfg (cmd : Byte) (args : List Byte) (useDefault : Bool) (timeout : U32) (s : State) :
    KeepsCfg s (execSendCommand cmd args useDefault timeout s) :=
  endsIn_onConnection rfl rfl (sendRequest_keepsCfg _ _ s.begin)

theorem execReadOne_keepsCfg (useDefault : Bool) (timeout : U32) (s : State) :
    KeepsCfg s (execReadOne useDefault timeout s) :=
  endsIn_onConnection rfl rfl (endsIn_next.2 (armAwait_cfg _ _))

theorem execXmit_keepsCfg (p : List Byte) (s : State) : KeepsCfg s (execXmit p s) :=
  endsIn_onConnection rfl rfl (copy_encode_keepsCfg (s := s.begin) fun _ _ ht => endsIn_next.2 ht)

theorem execFlush_keepsCfg (s : State) : KeepsCfg s (execFlush s) :=
  endsIn_onConnection rfl rfl (endsIn_next.2 rfl)

theorem execRawDrain_keepsCfg (window perRead : U32) (s : State) : KeepsCfg s (execRawDrain window perRead s) := by
  refine endsIn_onConnection rfl rfl ?_
  split <;> simp

theorem execCrcInit_keepsCfg (s : State) : KeepsCfg s (execCrcInit s) :=
  endsIn_onHostPort rfl (endsIn_next.2 rfl)

theorem execCrcByte_keepsCfg (b : Byte) (s : State) : KeepsCfg s (execCrcByte b s) :=
  endsIn_onHostPort rfl (endsIn_next.2 rfl)

theorem execCrc16_keepsCfg (data : List Byte) (s : State) : KeepsCfg s (execCrc16 data s) :=
  endsIn_onHostPort rfl (endsIn_next.2 rfl)

/-- A reserved select (R102). -/
theorem refuseSelect_keepsCfg (i : Instr) (s : State) : KeepsCfg s (refuseSelect i s) :=
  endsIn_onHostPort rfl (endsIn_next.2 rfl)

/-- The request of one of the six commands (R95). -/
theorem sendDefault_keepsCfg (i : Instr) (code : Byte) (args : List Byte) (s : State) :
    KeepsCfg s (sendDefault i code args s) :=
  endsIn_onConnection rfl rfl (sendRequest_keepsCfg _ _ s.begin)

/-! ## Events -/

@[simp] theorem drained_cfg (s : State) : (drained s).cfg = s.cfg := by
  cases h : s.cOp with
  | sendCommand | flush | none | connect | readOne | rawDrain => simp [drained, h]

@[simp] theorem opened_cfg (s : State) : (opened s).cfg = s.cfg := by
  unfold opened
  by_cases auth : s.cfg.authEn = true <;> by_cases settle : s.cfg.settleTicks = 0#32 <;> simp [auth, settle]

@[simp] theorem settlingTick_cfg (s : State) : (settlingTick s).cfg = s.cfg := by
  unfold settlingTick
  split
  · simp
  · rfl

@[simp] theorem awaitingTick_cfg (s : State) : (awaitingTick s).cfg = s.cfg := by
  unfold awaitingTick
  split
  · simp
  · rfl

theorem rawTick_keepsCfg (s : State) : KeepsCfg s (rawTick s) := by
  unfold rawTick
  split
  · exact drainDone_keepsCfg _
  · split
    · split <;> simp
    · simp

theorem execRxError_keepsCfg (s : State) : KeepsCfg s (execRxError s) := by
  unfold execRxError
  split <;> simp

theorem execTxError_keepsCfg (s : State) : KeepsCfg s (execTxError s) := by
  unfold execTxError
  split <;> simp

theorem execTxDrained_keepsCfg (s : State) : KeepsCfg s (execTxDrained s) := by
  unfold execTxDrained
  split <;> simp

theorem execOpenOk_keepsCfg (s : State) : KeepsCfg s (execOpenOk s) := by
  unfold execOpenOk
  split <;> simp

theorem execOpenFail_keepsCfg (s : State) : KeepsCfg s (execOpenFail s) := by
  unfold execOpenFail
  split <;> simp

theorem execTick_keepsCfg (s : State) : KeepsCfg s (execTick s) := by
  unfold execTick
  cases s.cState with
  | rawRead => exact rawTick_keepsCfg s.begin
  | settling | awaiting | disconnected | opening | ready | txWait => simp

/-- RESET changes no configuration register (R31): the free values it draws are for other registers (R271). -/
theorem execReset_keepsCfg (s : State) : KeepsCfg s (execReset s) := endsIn_next.2 rfl

/-! ## Every input, and the transport's turn -/

theorem exec_keepsCfg (i : Instr) (s : State) : KeepsCfg s (exec i s) := by
  cases i with
  | crc16 data => exact execCrc16_keepsCfg data s
  | encode payload => exact execEncode_keepsCfg payload s
  | decode buf => exact execDecode_keepsCfg buf s
  | connect => exact execConnect_keepsCfg s
  | disconnect => exact execDisconnect_keepsCfg s
  | sendCommand cmd args useDefault timeout => exact execSendCommand_keepsCfg cmd args useDefault timeout s
  | readOne useDefault timeout => exact execReadOne_keepsCfg useDefault timeout s
  | xmit payload => exact execXmit_keepsCfg payload s
  | flush => exact execFlush_keepsCfg s
  | rawDrain window perRead => exact execRawDrain_keepsCfg window perRead s
  | crcInit => exact execCrcInit_keepsCfg s
  | crcByte b => exact execCrcByte_keepsCfg b s
  | reserved0 | reservedD | reservedE | reservedF => exact refuseSelect_keepsCfg _ s
  | reset => exact execReset_keepsCfg s
  | rxByte b => exact receiveByte_keepsCfg b s.begin
  | rxError => exact execRxError_keepsCfg s
  | txDrained => exact execTxDrained_keepsCfg s
  | txError => exact execTxError_keepsCfg s
  | openOk => exact execOpenOk_keepsCfg s
  | openFail => exact execOpenFail_keepsCfg s
  | tick => exact execTick_keepsCfg s
  | frameS _ _ _ | frameL _ _ _ | lenS _ | lenL _ => exact receiveBytes_keepsCfg _ s.begin
  | fwVersion | getValues _ | forwardCan _ _ | pingCan | getCustomConfig _ | bmsGetValues =>
    exact sendDefault_keepsCfg _ _ _ s

theorem raiseByte_keepsCfg (s : State) : KeepsCfg s (raiseByte s) := by
  unfold raiseByte
  split
  · simp
  · exact takeRx_keepsCfg _ _

theorem readWaitIdle_keepsCfg (s : State) : KeepsCfg s (readWaitIdle s) := by
  unfold readWaitIdle
  split
  · split
    · simp
    · exact raiseByte_keepsCfg _
  · exact raiseByte_keepsCfg s

@[simp] theorem txWaitIdle_cfg (s : State) : (txWaitIdle s).cfg = s.cfg := by
  unfold txWaitIdle
  split
  · simp
  · split
    · simp
    · rfl

theorem transportTurn_keepsCfg (s : State) : KeepsCfg s (transportTurn s) := by
  unfold transportTurn
  cases s.cState with
  | awaiting | rawRead => exact readWaitIdle_keepsCfg s.begin
  | txWait | disconnected | opening | settling | ready => simp

/-- Taking an input from where it waited leaves the configuration. -/
theorem fetch_run_cfg {s t : State} {i : Instr} (h : fetch s = .run i t) : t.cfg = s.cfg := by
  obtain ⟨_, -, -, rfl⟩ | ⟨_, _, _, -, -, -, rfl⟩ := fetch_run h
  · rfl
  · rfl

theorem step_keepsCfg (s : State) : KeepsCfg s (step s) := by
  obtain ⟨i, t, hf, hs⟩ | ⟨r, -, hs⟩ | ⟨-, hs⟩ := step_cases s
  · rw [hs, KeepsCfg, ← fetch_run_cfg hf]
    exact exec_keepsCfg i t
  · simp [hs]
  · rw [hs]
    exact transportTurn_keepsCfg s

/-- Settles O45: a step runs the input it fetched or gives the transport its turn, and both keep the configuration. -/
theorem configurationIsConstant : Obligations.ConfigurationIsConstant := step_keepsCfg

end Sys2Proof.Machine
end

section
/-! The reserved operation selects (R102): all four are one refusal, which completes on a ready port and waits on a
busy one. -/

namespace Sys2Proof.Machine

/-- A failure without frame-error flags, completed at the start of a step, only ends the operation (R36). -/
theorem State.begin_completeAbsent (s : State) (ca : Cause) :
    s.begin.completeAbsent ca = endedWith s (absentRecord ca) := by
  have hrec : completionRecord .absent ca false false [] = absentRecord ca := by
    simp [completionRecord, absentRecord]
  simp [State.completeAbsent, State.complete, State.begin, endedWith, hrec]

theorem refuseSelect_ready {s : State} (i : Instr) (h : hostReady s = true) :
    refuseSelect i s = .next (endedWith s (absentRecord .illegalOp)) := by
  rw [refuseSelect, onHostPort_ready h, State.begin_completeAbsent]

theorem refuseSelect_busy {s : State} (i : Instr) (h : hostReady s = false) :
    refuseSelect i s = .next (s.begin.hold i) := onHostPort_busy h

theorem exec_reserved {i : Instr} (h : i = .reserved0 ∨ i = .reservedD ∨ i = .reservedE ∨ i = .reservedF)
    (s : State) : exec i s = refuseSelect i s := by
  obtain rfl | rfl | rfl | rfl := h <;> rfl

/-- Settles O35: the selects are read off the encoder, and each reserved input runs as `refuseSelect`, which a ready
port completes and a busy one holds. -/
theorem reservedSelectsAreRefused : Obligations.ReservedSelectsAreRefused := by
  refine ⟨⟨rfl, rfl, rfl, rfl⟩, fun s i hi => ?_⟩
  rw [exec_reserved hi]
  constructor
  · intro hready
    exact refuseSelect_ready i hready
  · intro hbusy
    exact ⟨s.begin.hold i, refuseSelect_busy i hbusy, by simp, by simp, by simp⟩

end Sys2Proof.Machine
end

section
/-! The CRC operations (R111, R113, R115): on a ready port each ends with the new register value in `crc` and as its
result, and CRC16 is CRC.INIT with the CRC.BYTEs after it. -/

namespace Sys2Proof.Machine

/-- The state in which a CRC operation has ended with `c` in `crc` and its two bytes as the result. -/
def endedWithCrc (s : State) (c : U16) : State := { endedWith s (okRecord (crcField c)) with crc := c }

/-- A success completed at the start of a step only ends the operation (R36), next to the `crc` it wrote. -/
theorem begin_completeOk_crc (s : State) (c : U16) :
    State.completeOk { s.begin with crc := c } (crcField c) = endedWithCrc s c := rfl

@[simp] theorem endedWithCrc_crc (s : State) (c : U16) : (endedWithCrc s c).crc = c := rfl

@[simp] theorem hostReady_endedWithCrc (s : State) (c : U16) : hostReady (endedWithCrc s c) = hostReady s := rfl

/-- Of several CRC operations the last one decides the state. -/
@[simp] theorem endedWithCrc_endedWithCrc (s : State) (c d : U16) :
    endedWithCrc (endedWithCrc s c) d = endedWithCrc s d := rfl

theorem exec_crcInit (s : State) : exec .crcInit s = execCrcInit s := rfl

theorem exec_crcByte (b : Byte) (s : State) : exec (.crcByte b) s = execCrcByte b s := rfl

theorem exec_crc16 (data : List Byte) (s : State) : exec (.crc16 data) s = execCrc16 data s := rfl

theorem exec_crcInit_ready {s : State} (h : hostReady s = true) :
    exec .crcInit s = .next (endedWithCrc s crcInitial) := by
  rw [exec_crcInit, execCrcInit, onHostPort_ready h, begin_completeOk_crc]

theorem exec_crcByte_ready {s : State} (b : Byte) (h : hostReady s = true) :
    exec (.crcByte b) s = .next (endedWithCrc s (crcByte s.crc b)) := by
  rw [exec_crcByte, execCrcByte, onHostPort_ready h, State.begin_crc, begin_completeOk_crc]

theorem exec_crc16_ready {s : State} (data : List Byte) (h : hostReady s = true) :
    exec (.crc16 data) s = .next (endedWithCrc s (crc16 data)) := by
  rw [exec_crc16, execCrc16, onHostPort_ready h, begin_completeOk_crc, crc16_eq]

/-- Settles O1: the ready port takes CRC.INIT. -/
theorem crcInitSetsZero : Obligations.CrcInitSetsZero :=
  ⟨rfl, fun _ h => exec_crcInit_ready h⟩

theorem crcBytes_cons (c : U16) (b : Byte) (bs : List Byte) : crcBytes c (b :: bs) = crcBytes (crcByte c b) bs := rfl

/-- After a CRC operation, CRC.BYTEs go on with the register from the value it left. -/
theorem execAll_crcBytes {s : State} (h : hostReady s = true) (c : U16) (bs : List Byte) :
    execAll (bs.map .crcByte) (endedWithCrc s c) = .next (endedWithCrc s (crcBytes c bs)) := by
  induction bs generalizing c with
  | nil => rfl
  | cons b bs ih =>
    have hb : exec (.crcByte b) (endedWithCrc s c) = .next (endedWithCrc s (crcByte c b)) := by
      simpa using exec_crcByte_ready b (s := endedWithCrc s c) (by simpa using h)
    rw [List.map_cons, execAll_cons hb, ih, crcBytes_cons]

theorem crcByte_zero_zero : crcByte 0#16 0#8 = 0#16 := by decide

/-- Zero bytes leave a zero register at zero (R116 (b)). -/
theorem crcBytes_zero_replicate_zero (n : Nat) : crcBytes 0#16 (List.replicate n 0#8) = 0#16 := by
  induction n with
  | zero => rfl
  | succ n ih => rw [List.replicate_succ, crcBytes_cons, crcByte_zero_zero, ih]

/-- Settles O3: CRC16 and the run of CRC.INIT and the CRC.BYTEs both end with `Crc16(data)`; the latter by induction on
the bytes. -/
theorem crc16IsInitThenBytes : Obligations.Crc16IsInitThenBytes := by
  refine ⟨fun _ => rfl, fun s data h => ⟨exec_crc16_ready data h, ?_⟩, fun n => ?_, by decide +kernel⟩
  · calc execAll (.crcInit :: data.map .crcByte) s
        = execAll (data.map .crcByte) (endedWithCrc s crcInitial) := execAll_cons (exec_crcInit_ready h)
      _ = .next (endedWithCrc s (crc16 data)) := by rw [execAll_crcBytes h, crc16_eq]
      _ = exec (.crc16 data) s := (exec_crc16_ready data h).symm
  · rw [crc16_eq]
    exact crcBytes_zero_replicate_zero n

end Sys2Proof.Machine
end

section
/-! The CRC register as a linear feedback shift register (R112): the shifts are linear over xor, and shifting zeros
out of the top adds no polynomial. The table form of R117 follows. -/

namespace Sys2Proof.Machine

theorem crcShift_of_msb {c : U16} (h : c.msb = true) : crcShift c = c <<< 1 ^^^ crcPoly := by simp [crcShift, h]

theorem crcShift_of_not_msb {c : U16} (h : c.msb = false) : crcShift c = c <<< 1 := by simp [crcShift, h]

/-- One shift is linear: where both top bits are 1, the two polynomials cancel, and so do the top bits. -/
theorem crcShift_xor (c d : U16) : crcShift (c ^^^ d) = crcShift c ^^^ crcShift d := by
  have hmsb : (c ^^^ d).msb = (c.msb ^^ d.msb) := BitVec.msb_xor
  have hshift : (c ^^^ d) <<< 1 = c <<< 1 ^^^ d <<< 1 := BitVec.shiftLeft_xor_distrib c d 1
  cases hc : c.msb <;> cases hd : d.msb <;> rw [hc, hd] at hmsb
  case false.false => rw [crcShift_of_not_msb hmsb, crcShift_of_not_msb hc, crcShift_of_not_msb hd, hshift]
  case false.true => rw [crcShift_of_msb hmsb, crcShift_of_not_msb hc, crcShift_of_msb hd, hshift, BitVec.xor_assoc]
  case true.false =>
    rw [crcShift_of_msb hmsb, crcShift_of_msb hc, crcShift_of_not_msb hd, hshift, BitVec.xor_assoc,
      BitVec.xor_comm (d <<< 1), BitVec.xor_assoc]
  case true.true =>
    rw [crcShift_of_not_msb hmsb, crcShift_of_msb hc, crcShift_of_msb hd, hshift, BitVec.xor_comm (d <<< 1),
      BitVec.xor_assoc, ← BitVec.xor_assoc crcPoly, BitVec.xor_self, BitVec.zero_xor]

theorem crcShifts_xor (n : Nat) (c d : U16) : crcShifts n (c ^^^ d) = crcShifts n c ^^^ crcShifts n d := by
  induction n generalizing c d with
  | zero => rfl
  | succ n ih => rw [crcShifts, crcShift_xor, ih, crcShifts, crcShifts]

/-- While the bits shifted out are 0, the register is only shifted. -/
theorem crcShifts_eq_shiftLeft {n : Nat} {c : U16} (h : ∀ i < n, c.getMsbD i = false) : crcShifts n c = c <<< n := by
  induction n generalizing c with
  | zero => simp [crcShifts]
  | succ n ih =>
    have hmsb : c.msb = false := by simpa [BitVec.msb] using h 0 (by omega)
    have hrest : ∀ i < n, (c <<< 1).getMsbD i = false := fun i hi => by
      simpa using h (i + 1) (by omega)
    rw [crcShifts, crcShift_of_not_msb hmsb, ih hrest, ← BitVec.shiftLeft_add, Nat.add_comm]

/-- A register is its low byte and its high byte, each in place. -/
theorem loByte_xor_hiByte (c : U16) : (loByte c).setWidth 16 ^^^ ((c >>> 8).setWidth 8).setWidth 16 <<< 8 = c := by
  refine BitVec.eq_of_getLsbD_eq fun i hi => ?_
  by_cases h : i < 8
  · simp [loByte, h, hi]
  · have hback : 8 + (i - 8) = i := by omega
    have hhigh : i - 8 < 8 := by omega
    simp [loByte, h, hi, hback, hhigh, show i - 8 < 16 by omega]

/-- Eight shifts move the low byte to the top; the bits they shift out are 0. -/
theorem crcShifts_loByte (c : U16) : crcShifts 8 ((loByte c).setWidth 16) = c <<< 8 := by
  have hzero : ∀ i < 8, ((loByte c).setWidth 16).getMsbD i = false := fun i hi => by
    simp [loByte, Nat.not_le.2 hi]
  rw [crcShifts_eq_shiftLeft hzero]
  refine BitVec.eq_of_getLsbD_eq fun i hi => ?_
  have hlow : i - 8 < 8 := by omega
  simp [loByte, hlow, show i - 8 < 16 by omega]

/-- R117: the byte meets the high byte of the register, and the low byte is only shifted. -/
theorem crcByte_table (c : U16) (b : Byte) :
    crcByte c b = c <<< 8 ^^^ crcByte 0#16 ((c >>> 8).setWidth 8 ^^^ b) := by
  have hsplit : c ^^^ b.setWidth 16 <<< 8 =
      (loByte c).setWidth 16 ^^^ ((c >>> 8).setWidth 8 ^^^ b).setWidth 16 <<< 8 := by
    rw [BitVec.setWidth_xor, BitVec.shiftLeft_xor_distrib, ← BitVec.xor_assoc, loByte_xor_hiByte]
  rw [crcByte, hsplit, crcShifts_xor, crcShifts_loByte, crcByte, BitVec.zero_xor]

/-- Settles O6: the equation by linearity, the listed entries by evaluation. -/
theorem crcTableForm : Obligations.CrcTableForm :=
  ⟨crcByte_table, by decide, by decide, by decide⟩

end Sys2Proof.Machine
end

section
/-! The framer over a whole frame (R150 to R156): it takes the header, the payload and the CRC field without a verdict,
and the stop byte after them gives the verdict. -/

namespace Sys2Proof.Machine

section
variable {cfg : Params} {f g : Framer} {N : Nat} {p q : List Byte}

/-! ## Bytes taken without a verdict -/

/-- The framer takes the bytes one by one, none of them gives a verdict, and the last framer is where they lead. -/
inductive Consumes (cfg : Params) : Framer → List Byte → Framer → Prop where
  | nil (f : Framer) : Consumes cfg f [] f
  | cons {f g h : Framer} {b : Byte} {bs : List Byte} (step : framerStep cfg f b = some (g, .pending))
      (rest : Consumes cfg g bs h) : Consumes cfg f (b :: bs) h

theorem Consumes.append {h : Framer} {bs cs : List Byte} (first : Consumes cfg f bs g) (second : Consumes cfg g cs h) :
    Consumes cfg f (bs ++ cs) h := by
  induction first with
  | nil f => exact second
  | cons step _ ih => exact .cons step (ih second)

/-- `Decode` goes on behind the bytes that gave no verdict (R165). -/
theorem Consumes.decodeLoop_append {bs : List Byte} (h : Consumes cfg f bs g) (used : Nat) (rest : List Byte) :
    decodeLoop cfg f used (bs ++ rest) = decodeLoop cfg g (used + bs.length) rest := by
  induction h generalizing used with
  | nil f => rfl
  | cons step _ ih =>
    rw [List.cons_append, decodeLoop, step]
    simp only [ih, List.length_cons, Nat.add_assoc, Nat.add_comm 1]

theorem decodeLoop_accept {b : Byte} (h : framerStep cfg f b = some (g, .accept p)) (used : Nat) (rest : List Byte) :
    decodeLoop cfg f used (b :: rest) = some (g, ⟨.ok, .none, false, false, p, used + 1⟩) := by
  rw [decodeLoop, h]

/-! ## The framer's step, state by state (R158) -/

theorem framerStep_startMarker (h : f.state = .seekStart) :
    framerStep cfg f cfg.startMarker = some ({ f with state := .readLength, len2 := false }, .pending) := by
  simp [framerStep, h, stepSeekStart]

theorem framerStep_lengthShort (h : f.state = .readLength) (hlen2 : f.len2 = false) {b : Byte} (hb : b.msb = false) :
    framerStep cfg f b = some (afterLength { f with len := b.setWidth 15 }, .pending) := by
  simp [framerStep, h, stepReadLength, hlen2, hb]

theorem framerStep_lengthFirst (h : f.state = .readLength) (hlen2 : f.len2 = false) {b : Byte} (hb : b.msb = true) :
    framerStep cfg f b = some ({ f with len := setLenHigh f.len b, len2 := true }, .pending) := by
  simp [framerStep, h, stepReadLength, hlen2, hb]

theorem framerStep_lengthSecond (h : f.state = .readLength) (hlen2 : f.len2 = true) (b : Byte) :
    framerStep cfg f b = some (afterLength { f with len := setLenLow f.len b, len2 := false }, .pending) := by
  simp [framerStep, h, stepReadLength, hlen2]

theorem framerStep_crcFirst (h : f.state = .readCrc) (hidx : f.crcidx = false) (b : Byte) :
    framerStep cfg f b = some ({ f with rxcrc := setCrcHigh f.rxcrc b, crcidx := true }, .pending) := by
  simp [framerStep, h, stepReadCrc, hidx]

theorem framerStep_crcSecond (h : f.state = .readCrc) (hidx : f.crcidx = true) (b : Byte) :
    framerStep cfg f b =
      some ({ f with rxcrc := setCrcLow f.rxcrc b, crcidx := false, state := .readStop }, .pending) := by
  simp [framerStep, h, stepReadCrc, hidx]

theorem framerStep_readStop (h : f.state = .readStop) (b : Byte) :
    framerStep cfg f b = some ({ f with state := .seekStart }, stopVerdict cfg f b) := by rw [framerStep, h]

/-- A payload byte inside `RXBUF` is stored (R153); the one that completes the payload leads to the CRC field. -/
theorem framerStep_readPayload (h : f.state = .readPayload) (hin : f.cnt.toNat < 32767) (b : Byte) :
    framerStep cfg f b = some (if f.cnt + 1 = f.len
      then { f with rxbuf := memWrite f.rxbuf f.cnt.toNat b, crc := crcByte f.crc b, cnt := f.cnt + 1,
                    crcidx := false, state := .readCrc }
      else { f with rxbuf := memWrite f.rxbuf f.cnt.toNat b, crc := crcByte f.crc b, cnt := f.cnt + 1 },
      .pending) := by
  have hw : bufWrite (bufferSize cfg .rxbuf) f.rxbuf f.cnt.toNat b = some (memWrite f.rxbuf f.cnt.toNat b) :=
    bufWrite_eq_some.2 ⟨hin, rfl⟩
  simp only [framerStep, h, stepReadPayload, hw]
  split <;> rfl

/-! ## The fields of the frame -/

/-- Behind the first of two length bytes the second one completes the length, whatever `f_len` held (R151, R152). -/
theorem setLenLow_setLenHigh (v : U15) (hi lo : Byte) : setLenLow (setLenHigh v hi) lo = hi.extractLsb' 0 7 ++ lo :=
  congrArg (· ++ lo) BitVec.extractLsb'_append_eq_left

/-- The two length bytes of R85, without the bit that marks the long form, are the length. -/
theorem longLength_join (n : Nat) :
    (0x80#8 ||| BitVec.ofNat 8 (n / 256)).extractLsb' 0 7 ++ BitVec.ofNat 8 n = BitVec.ofNat 15 n := by
  have hmark : (0x80#8).extractLsb' 0 7 = 0#7 := rfl
  have hhigh : (0x80#8 ||| BitVec.ofNat 8 (n / 256)).extractLsb' 0 7 = (BitVec.ofNat 15 n).extractLsb' 8 7 := by
    rw [BitVec.extractLsb'_or, hmark, BitVec.zero_or]
    refine BitVec.eq_of_toNat_eq ?_
    simp only [BitVec.extractLsb'_toNat, BitVec.toNat_ofNat, Nat.shiftRight_eq_div_pow]
    omega
  have hlow : BitVec.ofNat 8 n = (BitVec.ofNat 15 n).extractLsb' 0 8 := by
    refine BitVec.eq_of_toNat_eq ?_
    simp only [BitVec.extractLsb'_toNat, BitVec.toNat_ofNat, Nat.shiftRight_zero]
    omega
  rw [hhigh, hlow]
  exact (BitVec.extractLsb'_append_extractLsb'_eq_extractLsb' rfl).trans BitVec.extractLsb'_eq_self

/-- The two CRC bytes join to the received CRC, whatever `f_rxcrc` held (R154). -/
theorem setCrcLow_setCrcHigh (v c : U16) : setCrcLow (setCrcHigh v (c.extractLsb' 8 8)) (c.extractLsb' 0 8) = c :=
  calc setCrcLow (setCrcHigh v (c.extractLsb' 8 8)) (c.extractLsb' 0 8)
      = c.extractLsb' 8 8 ++ c.extractLsb' 0 8 := congrArg (· ++ _) BitVec.extractLsb'_append_eq_left
    _ = c := (BitVec.extractLsb'_append_extractLsb'_eq_extractLsb' rfl).trans BitVec.extractLsb'_eq_self

theorem crcBytes_append (c : U16) (s t : List Byte) : crcBytes c (s ++ t) = crcBytes (crcBytes c s) t :=
  List.foldl_append

/-- R131 written out in the statements is the encoder's frame. -/
theorem frameBytes_eq_encodeFrame (cfg : Params) (p : List Byte) : frameBytes cfg p = encodeFrame cfg p := by
  have hhi : p.length >>> 8 = p.length / 256 := Nat.shiftRight_eq_div_pow ..
  have hlo : BitVec.ofNat 8 (p.length % 256) = BitVec.ofNat 8 p.length := BitVec.eq_of_toNat_eq (by simp)
  simp only [frameBytes, encodeFrame, frameOf, frameHeader, crcField, lenField, hhi, hlo]
  split <;> rfl

/-! ## What the framer holds inside a frame -/

/-- Inside a frame of `N` payload bytes the framer has stored `p`, with its CRC, and awaits the next payload byte or,
with none missing, the CRC field (R152, R153). -/
structure Receiving (N : Nat) (p : List Byte) (f : Framer) : Prop where
  state : f.state = if p.length < N then .readPayload else .readCrc
  len2 : f.len2 = false
  crcidx : f.crcidx = false
  len : f.len.toNat = N
  cnt : f.cnt.toNat = p.length
  crc : f.crc = crc16 p
  stored : memBytes f.rxbuf p.length = p
  wf : f.rxbuf.wf = true

/-- The framer has stored the payload `p`, has received `c` as its CRC, and awaits the stop byte (R154, R156). -/
structure AtStop (p : List Byte) (c : U16) (f : Framer) : Prop where
  state : f.state = .readStop
  len2 : f.len2 = false
  crcidx : f.crcidx = false
  crc : f.crc = crc16 p
  rxcrc : f.rxcrc = c
  stored : memBytes f.rxbuf f.len.toNat = p

/-- `AfterLength` begins the payload (R152). -/
theorem receiving_afterLength (hlen : f.len.toNat = N) (hlen2 : f.len2 = false) (hcrcidx : f.crcidx = false)
    (hwf : f.rxbuf.wf = true) : Receiving N [] (afterLength f) := by
  unfold afterLength
  split
  · next h =>
    obtain rfl : N = 0 := by rw [← hlen, h]; rfl
    exact ⟨rfl, hlen2, rfl, hlen, rfl, rfl, rfl, hwf⟩
  · next h =>
    have hpos : 0 < N := hlen ▸ Nat.pos_of_ne_zero fun h0 => h (BitVec.eq_of_toNat_eq h0)
    exact ⟨(if_pos hpos).symm, hlen2, hcrcidx, hlen, rfl, rfl, rfl, hwf⟩

variable (cfg)

/-- The length field of `N` begins a payload of `N` bytes (R85, R151, R152). -/
theorem consumes_lenField (hstate : f.state = .readLength) (hlen2 : f.len2 = false) (hcrcidx : f.crcidx = false)
    (hwf : f.rxbuf.wf = true) (hN : N ≤ 32767) : ∃ g, Consumes cfg f (lenField N) g ∧ Receiving N [] g := by
  unfold lenField
  split
  · next hshort =>
    have hmsb : (BitVec.ofNat 8 N).msb = false := by
      rw [BitVec.msb_eq_false_iff_two_mul_lt, BitVec.toNat_ofNat]
      omega
    have hlen : ((BitVec.ofNat 8 N).setWidth 15).toNat = N := by
      rw [BitVec.toNat_setWidth, BitVec.toNat_ofNat]
      omega
    exact ⟨_, .cons (framerStep_lengthShort hstate hlen2 hmsb) (.nil _),
      receiving_afterLength hlen hlen2 hcrcidx hwf⟩
  · next hlong =>
    have hmsb : (0x80#8 ||| BitVec.ofNat 8 (N / 256)).msb = true := by rw [BitVec.msb_or]; rfl
    have hlen : (setLenLow (setLenHigh f.len (0x80#8 ||| BitVec.ofNat 8 (N / 256))) (BitVec.ofNat 8 N)).toNat = N := by
      rw [setLenLow_setLenHigh, longLength_join, BitVec.toNat_ofNat]
      omega
    refine ⟨_, .cons (framerStep_lengthFirst hstate hlen2 hmsb)
      (.cons (framerStep_lengthSecond ?_ ?_ _) (.nil _)), ?_⟩
    · exact hstate
    · rfl
    · exact receiving_afterLength hlen rfl hcrcidx hwf

/-- The header of a frame takes an idle framer to the start of the payload (R150 to R152). -/
theorem consumes_frameHeader (hidle : FramerIdle f) (hwf : f.rxbuf.wf = true) (hN : N ≤ 32767) :
    ∃ g, Consumes cfg f (frameHeader cfg N) g ∧ Receiving N [] g := by
  obtain ⟨hstate, -, hcrcidx⟩ := hidle
  obtain ⟨g, hlenField, hg⟩ :=
    consumes_lenField cfg (f := { f with state := .readLength, len2 := false }) rfl rfl hcrcidx hwf hN
  exact ⟨g, .cons (framerStep_startMarker hstate) hlenField, hg⟩

/-- One more payload byte is stored behind the others (R153). -/
theorem Receiving.step (h : Receiving N p f) (hmissing : p.length < N) (b : Byte) :
    ∃ g, framerStep cfg f b = some (g, .pending) ∧ Receiving N (p ++ [b]) g := by
  have hlt : f.cnt.toNat + 1 < 2 ^ 15 := by
    have := f.len.isLt
    have := h.len
    have := h.cnt
    omega
  have hstate : f.state = .readPayload := by rw [h.state, if_pos hmissing]
  have hcnt : (f.cnt + 1).toNat = (p ++ [b]).length := by
    rw [BitVec.toNat_add, List.length_append, ← h.cnt]
    exact Nat.mod_eq_of_lt hlt
  have hlast : f.cnt + 1 = f.len ↔ (p ++ [b]).length = N := by rw [← BitVec.toNat_inj, hcnt, h.len]
  have hcrc : crcByte f.crc b = crc16 (p ++ [b]) := by
    rw [h.crc, crc16_eq, crc16_eq, crcBytes_append]
    rfl
  have hstored : memBytes (memWrite f.rxbuf f.cnt.toNat b) (p ++ [b]).length = p ++ [b] := by
    rw [h.cnt, List.length_append]
    exact (memBytes_memWrite_succ h.wf p.length b).trans (by rw [h.stored])
  have hwf := memWrite_wf h.wf f.cnt.toNat b
  refine ⟨_, framerStep_readPayload hstate (by omega) b, ?_⟩
  split
  · next hend =>
    have hnone : ¬ (p ++ [b]).length < N := by rw [hlast.1 hend]; exact Nat.lt_irrefl N
    exact ⟨(if_neg hnone).symm, h.len2, rfl, h.len, hcnt, hcrc, hstored, hwf⟩
  · next hmore =>
    have hsome : (p ++ [b]).length < N := by
      have hne := mt hlast.2 hmore
      rw [List.length_append, List.length_singleton] at hne ⊢
      omega
    exact ⟨hstate.trans (if_pos hsome).symm, h.len2, h.crcidx, h.len, hcnt, hcrc, hstored, hwf⟩

/-- Payload bytes are stored as long as none is too many. -/
theorem Receiving.consumes (h : Receiving N p f) (hfit : p.length + q.length ≤ N) :
    ∃ g, Consumes cfg f q g ∧ Receiving N (p ++ q) g := by
  induction q generalizing p f with
  | nil => exact ⟨f, .nil f, by rwa [List.append_nil]⟩
  | cons b q ih =>
    rw [List.length_cons] at hfit
    obtain ⟨f₁, hstep, h₁⟩ := h.step cfg (by omega) b
    obtain ⟨g, hrest, hg⟩ := ih h₁ (by rw [List.length_append, List.length_singleton]; omega)
    exact ⟨g, .cons hstep hrest, by rwa [List.append_assoc] at hg⟩

/-- The CRC field behind a complete payload is kept for the check at the stop byte (R154). -/
theorem Receiving.consumes_crcField (h : Receiving p.length p f) (c : U16) :
    ∃ g, Consumes cfg f (crcField c) g ∧ AtStop p c g := by
  have hstate : f.state = .readCrc := by rw [h.state, if_neg (Nat.lt_irrefl _)]
  have hstored : memBytes f.rxbuf f.len.toNat = p := by rw [h.len, h.stored]
  refine ⟨_, .cons (framerStep_crcFirst hstate h.crcidx _) (.cons (framerStep_crcSecond ?_ ?_ _) (.nil _)), ?_⟩
  · exact hstate
  · rfl
  · exact ⟨rfl, h.len2, rfl, h.crc, setCrcLow_setCrcHigh f.rxcrc c, hstored⟩

/-! ## Whole frames -/

/-- An idle framer takes a frame up to its stop byte, whatever CRC it carries (R150 to R154). -/
theorem consumes_untilStop (hidle : FramerIdle f) (hwf : f.rxbuf.wf = true) (hp : p.length ≤ 32767) (c : U16) :
    ∃ g, Consumes cfg f (frameHeader cfg p.length ++ p ++ crcField c) g ∧ AtStop p c g := by
  obtain ⟨f₁, hheader, h₁⟩ := consumes_frameHeader cfg hidle hwf hp
  obtain ⟨f₂, hpayload, h₂⟩ := h₁.consumes cfg (q := p) (by simp)
  obtain ⟨f₃, hcrc, h₃⟩ := h₂.consumes_crcField cfg c
  exact ⟨f₃, (hheader.append hpayload).append hcrc, h₃⟩

/-- With the payload's own CRC received, the stop marker accepts the payload, and the framer is idle again (R156). -/
theorem AtStop.accepts (h : AtStop p (crc16 p) f) :
    ∃ g, FramerIdle g ∧ framerStep cfg f cfg.stopMarker = some (g, .accept p) := by
  refine ⟨{ f with state := .seekStart }, ⟨rfl, h.len2, h.crcidx⟩, ?_⟩
  rw [framerStep_readStop h.state]
  obtain ⟨-, -, hv⟩ | ⟨hbad, -⟩ := stopVerdict_cases cfg f cfg.stopMarker
  · rw [hv, h.stored]
  · exact absurd hbad (by simp [h.crc, h.rxcrc])

/-- From an idle framer on, `Decode` accepts an encoded frame at its last byte and does not look at what follows. -/
theorem decodeLoop_encodeFrame (hidle : FramerIdle f) (hwf : f.rxbuf.wf = true) (hp : p.length ≤ 32767) (used : Nat)
    (rest : List Byte) :
    ∃ g, FramerIdle g ∧ decodeLoop cfg f used (encodeFrame cfg p ++ rest) =
      some (g, ⟨.ok, .none, false, false, p, used + (encodeFrame cfg p).length⟩) := by
  obtain ⟨f₁, hbody, hstop⟩ := consumes_untilStop cfg hidle hwf hp (crc16 p)
  obtain ⟨g, hg, haccept⟩ := hstop.accepts cfg
  refine ⟨g, hg, ?_⟩
  rw [encodeFrame, frameOf, List.append_assoc, hbody.decodeLoop_append, List.singleton_append,
    decodeLoop_accept haccept, Nat.add_assoc, ← List.length_singleton (a := cfg.stopMarker), ← List.length_append]

end

/-- Settles O11: the framer that `Decode` restarts is idle, so it takes the frame field by field up to the stop byte,
where the CRC of the bytes stored is the CRC received. -/
theorem decodeOfEncodeIsThePayload : Obligations.DecodeOfEncodeIsThePayload := by
  intro cfg f p hwf hp
  obtain ⟨g, hg, hdecode⟩ := decodeLoop_encodeFrame cfg (f := f.restart) ⟨rfl, rfl, rfl⟩ hwf hp 0 []
  refine ⟨g, hg, ?_⟩
  rwa [List.append_nil, Nat.zero_add, ← frameBytes_eq_encodeFrame] at hdecode

end Sys2Proof.Machine
end

section
/-! The framer's step as the table of R158, one lemma for each row that is not yet one. -/

namespace Sys2Proof.Machine

section
variable {cfg : Params} {f : Framer} {b : Byte}

/-! ## What a row writes: `f_len`, `f_rxcrc`, `RXBUF` (R151 to R154) -/

@[simp] theorem setLenHigh_high (v : U15) (b : Byte) : (setLenHigh v b).extractLsb' 8 7 = b.extractLsb' 0 7 :=
  BitVec.extractLsb'_append_eq_left

@[simp] theorem setLenHigh_low (v : U15) (b : Byte) : (setLenHigh v b).extractLsb' 0 8 = v.extractLsb' 0 8 :=
  BitVec.extractLsb'_append_eq_right

@[simp] theorem setLenLow_high (v : U15) (b : Byte) : (setLenLow v b).extractLsb' 8 7 = v.extractLsb' 8 7 :=
  BitVec.extractLsb'_append_eq_left

@[simp] theorem setLenLow_low (v : U15) (b : Byte) : (setLenLow v b).extractLsb' 0 8 = b :=
  BitVec.extractLsb'_append_eq_right

@[simp] theorem setCrcHigh_high (v : U16) (b : Byte) : (setCrcHigh v b).extractLsb' 8 8 = b :=
  BitVec.extractLsb'_append_eq_left

@[simp] theorem setCrcHigh_low (v : U16) (b : Byte) : (setCrcHigh v b).extractLsb' 0 8 = v.extractLsb' 0 8 :=
  BitVec.extractLsb'_append_eq_right

@[simp] theorem setCrcLow_high (v : U16) (b : Byte) : (setCrcLow v b).extractLsb' 8 8 = v.extractLsb' 8 8 :=
  BitVec.extractLsb'_append_eq_left

@[simp] theorem setCrcLow_low (v : U16) (b : Byte) : (setCrcLow v b).extractLsb' 0 8 = b :=
  BitVec.extractLsb'_append_eq_right

theorem storedAt_memWrite {m : Memory} (hm : m.wf = true) (i : Nat) (b : Byte) :
    StoredAt m (memWrite m i b) i [b] := by
  refine ⟨fun j hj => ?_, fun j hj => memRead_memWrite_other hm ?_ b⟩
  · obtain rfl : j = 0 := Nat.lt_one_iff.1 hj
    exact memRead_memWrite_same hm i b
  · rw [List.length_singleton] at hj
    omega

theorem afterLength_empty (h : f.len = 0) :
    afterLength f = { f with cnt := 0, crc := 0, crcidx := false, state := .readCrc } := if_pos h

theorem afterLength_nonempty (h : f.len ≠ 0) :
    afterLength f = { f with cnt := 0, crc := 0, state := .readPayload } := if_neg h

/-! ## Rows -/

theorem framerStep_notStartMarker (h : f.state = .seekStart) (hb : b ≠ cfg.startMarker) :
    framerStep cfg f b = some (f, .pending) := by
  simp [framerStep, h, stepSeekStart, hb]

theorem framerStep_lengthShort_nonempty (h : f.state = .readLength) (hlen2 : f.len2 = false) (hb : b.msb = false)
    (hpos : b ≠ 0#8) : framerStep cfg f b =
      some ({ f with len := b.setWidth 15, cnt := 0, crc := 0, state := .readPayload }, .pending) := by
  have hlen : b.setWidth 15 ≠ 0 := by bv_omega
  rw [framerStep_lengthShort h hlen2 hb, afterLength_nonempty hlen]

theorem framerStep_lengthShort_empty (h : f.state = .readLength) (hlen2 : f.len2 = false) : framerStep cfg f 0#8 =
    some ({ f with len := 0, cnt := 0, crc := 0, crcidx := false, state := .readCrc }, .pending) :=
  framerStep_lengthShort h hlen2 rfl

theorem framerStep_lengthSecond_nonempty (h : f.state = .readLength) (hlen2 : f.len2 = true)
    (hn : setLenLow f.len b ≠ 0) : framerStep cfg f b = some
      ({ f with len := setLenLow f.len b, len2 := false, cnt := 0, crc := 0, state := .readPayload }, .pending) := by
  rw [framerStep_lengthSecond h hlen2, afterLength_nonempty hn]

theorem framerStep_lengthSecond_empty (h : f.state = .readLength) (hlen2 : f.len2 = true)
    (hn : setLenLow f.len b = 0) : framerStep cfg f b = some
      ({ f with len := setLenLow f.len b, len2 := false, cnt := 0, crc := 0, crcidx := false, state := .readCrc },
        .pending) := by
  rw [framerStep_lengthSecond h hlen2, afterLength_empty hn]

/-- Below `f_len` the counter does not wrap, so the register's last-byte test is the one on numbers. -/
theorem cnt_succ_eq_len_iff (hcnt : f.cnt.toNat < f.len.toNat) :
    f.cnt + 1 = f.len ↔ f.cnt.toNat + 1 = f.len.toNat := by
  have hlen := f.len.isLt
  have hsucc : (f.cnt + 1).toNat = f.cnt.toNat + 1 :=
    (BitVec.toNat_add ..).trans (Nat.mod_eq_of_lt (show f.cnt.toNat + 1 < 2 ^ 15 by omega))
  rw [← BitVec.toNat_inj, hsucc]

theorem framerStep_payloadMore (h : f.state = .readPayload) (hmore : f.cnt.toNat + 1 < f.len.toNat) :
    framerStep cfg f b = some
      ({ f with rxbuf := memWrite f.rxbuf f.cnt.toNat b, crc := crcByte f.crc b, cnt := f.cnt + 1 }, .pending) := by
  have hlen := f.len.isLt
  have hnot : ¬ f.cnt + 1 = f.len := by
    rw [cnt_succ_eq_len_iff (by omega)]
    omega
  rw [framerStep_readPayload h (by omega), if_neg hnot]

theorem framerStep_payloadLast (h : f.state = .readPayload) (hlast : f.cnt.toNat + 1 = f.len.toNat) :
    framerStep cfg f b = some
      ({ f with rxbuf := memWrite f.rxbuf f.cnt.toNat b, crc := crcByte f.crc b, cnt := f.cnt + 1, crcidx := false,
                state := .readCrc }, .pending) := by
  have hlen := f.len.isLt
  rw [framerStep_readPayload h (by omega), if_pos ((cnt_succ_eq_len_iff (by omega)).2 hlast)]

theorem framerStep_accept (h : f.state = .readStop) (hcrc : f.rxcrc = f.crc) (hb : b = cfg.stopMarker) :
    framerStep cfg f b = some ({ f with state := .seekStart }, .accept (memBytes f.rxbuf f.len.toNat)) := by
  rw [framerStep_readStop h]
  obtain ⟨-, -, hv⟩ | ⟨hbad, -⟩ := stopVerdict_cases cfg f b
  · rw [hv]
  · exact absurd hbad (by simp [hcrc, hb])

theorem framerStep_reject (h : f.state = .readStop) (hbad : ¬(f.rxcrc = f.crc ∧ b = cfg.stopMarker)) :
    framerStep cfg f b = some ({ f with state := .seekStart },
      .reject (decide (f.rxcrc ≠ f.crc)) (decide (b ≠ cfg.stopMarker))) := by
  rw [framerStep_readStop h]
  obtain ⟨hcrc, hb, -⟩ | ⟨-, hv⟩ := stopVerdict_cases cfg f b
  · exact absurd ⟨hcrc, hb⟩ hbad
  · rw [hv]

end

/-- Settles O10, row by row; where a row only fixes the two halves of a register or one buffer index, the witness is
the value the framer writes. -/
theorem framerStepTable : Obligations.FramerStepTable := by
  intro cfg f b
  refine ⟨framerStep_notStartMarker, fun h hb => hb ▸ framerStep_startMarker h, framerStep_lengthShort_nonempty,
    fun h hlen2 hb => hb ▸ framerStep_lengthShort_empty h hlen2, fun h hlen2 hb => ?lengthFirst,
    fun h hlen2 => ?lengthSecond, fun h _ hwf => ?payload, fun h hidx => ?crcFirst, fun h hidx => ?crcSecond,
    fun h hgood => framerStep_accept h hgood.1 hgood.2, framerStep_reject⟩
  case lengthFirst =>
    exact ⟨setLenHigh f.len b, setLenHigh_high .., setLenHigh_low .., framerStep_lengthFirst h hlen2 hb⟩
  case lengthSecond =>
    exact ⟨setLenLow f.len b, setLenLow_high .., setLenLow_low .., framerStep_lengthSecond_nonempty h hlen2,
      framerStep_lengthSecond_empty h hlen2⟩
  case payload =>
    exact ⟨memWrite f.rxbuf f.cnt.toNat b, storedAt_memWrite hwf _ b, framerStep_payloadMore h,
      framerStep_payloadLast h⟩
  case crcFirst =>
    exact ⟨setCrcHigh f.rxcrc b, setCrcHigh_high .., setCrcHigh_low .., framerStep_crcFirst h hidx b⟩
  case crcSecond =>
    exact ⟨setCrcLow f.rxcrc b, setCrcLow_high .., setCrcLow_low .., framerStep_crcSecond h hidx b⟩

end Sys2Proof.Machine
end

section
/-! One flipped bit in a frame (R116 (e), R166): the CRC step loses nothing, so a payload with one byte changed has
another CRC, and a frame whose CRC field is not its payload's is rejected at its stop byte. -/

namespace Sys2Proof.Machine

/-! ## The CRC step is injective in the register and in the byte -/

/-- The polynomial's lowest bit is 1 and a shift leaves 0 there, so only 0 is shifted to 0. -/
theorem eq_zero_of_crcShift_eq_zero {c : U16} (h : crcShift c = 0#16) : c = 0#16 := by
  cases hmsb : c.msb with
  | true =>
    rw [crcShift_of_msb hmsb] at h
    have hbit := congrArg (·.getLsbD 0) h
    simp [crcPoly] at hbit
  | false =>
    rw [crcShift_of_not_msb hmsb] at h
    rw [BitVec.msb_eq_false_iff_two_mul_lt] at hmsb
    have hval := congrArg BitVec.toNat h
    refine BitVec.eq_of_toNat_eq ?_
    simp only [BitVec.toNat_shiftLeft, BitVec.toNat_ofNat, Nat.shiftLeft_eq] at hval ⊢
    omega

theorem crcShift_injective : Function.Injective crcShift := by
  intro c d h
  have hzero : crcShift (c ^^^ d) = 0#16 := by rw [crcShift_xor, h, BitVec.xor_self]
  exact BitVec.xor_eq_zero_iff.1 (eq_zero_of_crcShift_eq_zero hzero)

theorem crcShifts_injective (n : Nat) : Function.Injective (crcShifts n) := by
  induction n with
  | zero => exact fun _ _ h => h
  | succ n ih => exact ih.comp crcShift_injective

theorem crcByte_injective_register (b : Byte) : Function.Injective (crcByte · b) :=
  fun _ _ h => BitVec.xor_left_inj _ |>.1 (crcShifts_injective 8 h)

theorem crcByte_injective_byte (c : U16) : Function.Injective (crcByte c) := by
  intro b d h
  have hfield : b.setWidth 16 <<< 8 = d.setWidth 16 <<< 8 := BitVec.xor_right_inj _ |>.1 (crcShifts_injective 8 h)
  have hhigh (x : Byte) : (x.setWidth 16 <<< 8).extractLsb' 8 8 = x := by
    refine BitVec.eq_of_getLsbD_eq fun i hi => ?_
    simp [hi, show 8 + i < 16 by omega]
  rw [← hhigh b, hfield, hhigh]

theorem crcBytes_injective_register (s : List Byte) : Function.Injective (crcBytes · s) := by
  induction s with
  | nil => exact fun _ _ h => h
  | cons b s ih => exact ih.comp (crcByte_injective_register b)

/-- A string with one byte changed has another CRC. -/
theorem crc16_set_ne {s : List Byte} {k : Nat} (hk : k < s.length) {b : Byte} (hb : b ≠ s[k]) :
    crc16 (s.set k b) ≠ crc16 s := by
  intro h
  have hs : s = s.take k ++ s[k] :: s.drop (k + 1) := by simp
  rw [List.set_eq_take_append_cons_drop, if_pos hk] at h
  conv at h => rhs; rw [hs]
  rw [crc16_eq, crc16_eq, crcBytes_append, crcBytes_append, crcBytes_cons, crcBytes_cons] at h
  exact hb (crcByte_injective_byte _ (crcBytes_injective_register _ h))

/-! ## Flipping a bit of a byte string -/

theorem byte_xor_bit_ne (b : Byte) {i : Nat} (hi : i < 8) : b ^^^ (1#8 <<< i) ≠ b := by
  intro h
  have hbit := congrArg (·.getLsbD i) h
  simp [hi] at hbit

@[simp] theorem flipBit_length (s : List Byte) (k i : Nat) : (flipBit s k i).length = s.length := List.length_set ..

theorem flipBit_append_left {s : List Byte} (t : List Byte) {k : Nat} (hk : k < s.length) (i : Nat) :
    flipBit (s ++ t) k i = flipBit s k i ++ t := by
  rw [flipBit, List.getD_append _ _ _ _ hk, List.set_append_left _ _ hk, flipBit]

theorem flipBit_append_right (s t : List Byte) (k i : Nat) :
    flipBit (s ++ t) (s.length + k) i = s ++ flipBit t k i := by
  have hle : s.length ≤ s.length + k := Nat.le_add_right ..
  rw [flipBit, List.getD_append_right _ _ _ _ hle, List.set_append_right _ _ hle, Nat.add_sub_cancel_left, flipBit]

theorem flipBit_ne {s : List Byte} {k i : Nat} (hk : k < s.length) (hi : i < 8) : flipBit s k i ≠ s := by
  intro h
  have hget : (flipBit s k i)[k]'(by simpa using hk) = s[k] := by simp only [h]
  simp only [flipBit, List.getElem_set_self, List.getD_eq_getElem _ _ hk] at hget
  exact byte_xor_bit_ne _ hi hget

theorem crc16_flipBit_ne_crc16 {s : List Byte} {k i : Nat} (hk : k < s.length) (hi : i < 8) :
    crc16 (flipBit s k i) ≠ crc16 s :=
  crc16_set_ne hk (by rw [List.getD_eq_getElem _ _ hk]; exact byte_xor_bit_ne _ hi)

/-! ## Flipping a bit of a frame -/

@[simp] theorem crcField_length (c : U16) : (crcField c).length = 2 := rfl

/-- Any two bytes are the CRC field of some value. -/
theorem crcField_append (hi lo : Byte) : crcField (hi ++ lo) = [hi, lo] := by
  have hhi : (hi ++ lo).extractLsb' 8 8 = hi := BitVec.extractLsb'_append_eq_left
  have hlo : (hi ++ lo).extractLsb' 0 8 = lo := BitVec.extractLsb'_append_eq_right
  exact congrArg₂ (fun x y => [x, y]) hhi hlo

theorem flipBit_crcField (c : U16) {k i : Nat} (hk : k < 2) (hi : i < 8) :
    ∃ d, d ≠ c ∧ flipBit (crcField c) k i = crcField d := by
  have hlen : (flipBit (crcField c) k i).length = 2 := by simp
  obtain ⟨b₁, b₂, hbytes⟩ := List.length_eq_two.1 hlen
  rw [← crcField_append] at hbytes
  refine ⟨b₁ ++ b₂, ?_, hbytes⟩
  intro h
  exact flipBit_ne (s := crcField c) hk hi (by rw [hbytes, h])

@[simp] theorem frameHeader_length (cfg : Params) (n : Nat) :
    (frameHeader cfg n).length = if n < 128 then 2 else 3 := by
  unfold frameHeader lenField
  split <;> rfl

/-- With one bit of the payload or of the CRC field flipped, a frame is still a frame of the same length, and its CRC
field is no longer its payload's CRC. -/
theorem flipBit_encodeFrame (cfg : Params) (p : List Byte) {k i : Nat} (hi : i < 8) (hk : k < p.length + 2) :
    ∃ q c, q.length = p.length ∧ c ≠ crc16 q ∧
      flipBit (encodeFrame cfg p) ((frameHeader cfg p.length).length + k) i = frameOf cfg q c := by
  have hframe : encodeFrame cfg p =
      frameHeader cfg p.length ++ (p ++ (crcField (crc16 p) ++ [cfg.stopMarker])) := by
    simp only [encodeFrame, frameOf, List.append_assoc]
  rw [hframe, flipBit_append_right]
  by_cases hpayload : k < p.length
  · refine ⟨flipBit p k i, crc16 p, flipBit_length .., (crc16_flipBit_ne_crc16 hpayload hi).symm, ?_⟩
    rw [flipBit_append_left _ hpayload, frameOf, flipBit_length, List.append_assoc, List.append_assoc]
  · obtain ⟨j, rfl⟩ := Nat.exists_eq_add_of_le (Nat.not_lt.1 hpayload)
    have hj : j < 2 := by omega
    obtain ⟨d, hd, hfield⟩ := flipBit_crcField (crc16 p) hj hi
    refine ⟨p, d, rfl, hd, ?_⟩
    rw [flipBit_append_right, flipBit_append_left _ hj, hfield, frameOf, List.append_assoc, List.append_assoc]

/-! ## A frame with a wrong CRC field -/

section
variable {cfg : Params} {f g : Framer} {p : List Byte}

theorem decodeLoop_reject {b : Byte} {c t : Bool} (h : framerStep cfg f b = some (g, .reject c t)) (used : Nat)
    (rest : List Byte) :
    decodeLoop cfg f used (b :: rest) = some (g, ⟨.absent, .frameError, c, t, [], used + 1⟩) := by
  rw [decodeLoop, h]

variable (cfg)

/-- With another CRC received than the payload's, the stop marker rejects for the CRC alone (R156). -/
theorem AtStop.rejects {c : U16} (h : AtStop p c f) (hc : c ≠ crc16 p) :
    ∃ g, FramerIdle g ∧ framerStep cfg f cfg.stopMarker = some (g, .reject true false) := by
  have hcrc : f.rxcrc ≠ f.crc := by rwa [h.rxcrc, h.crc]
  refine ⟨{ f with state := .seekStart }, ⟨rfl, h.len2, h.crcidx⟩, ?_⟩
  rw [framerStep_reject h.state fun hgood => hcrc hgood.1, decide_eq_true hcrc, decide_eq_false (by simp)]

theorem decodeLoop_wrongCrc (hidle : FramerIdle f) (hwf : f.rxbuf.wf = true) (hp : p.length ≤ 32767) {c : U16}
    (hc : c ≠ crc16 p) (used : Nat) :
    ∃ g used', FramerIdle g ∧
      decodeLoop cfg f used (frameOf cfg p c) = some (g, ⟨.absent, .frameError, true, false, [], used'⟩) := by
  obtain ⟨f₁, hbody, hstop⟩ := consumes_untilStop cfg hidle hwf hp c
  obtain ⟨g, hg, hreject⟩ := hstop.rejects cfg hc
  exact ⟨g, _, hg, (hbody.decodeLoop_append used [cfg.stopMarker]).trans (decodeLoop_reject hreject _ [])⟩

end

/-- Settles O13: the flipped frame is a frame whose CRC field is wrong, and the framer rejects it at the stop byte. -/
theorem decodeCatchesEverySingleBit : Obligations.DecodeCatchesEverySingleBit := by
  intro cfg f p k i hwf hp hi hlo hhi
  rw [← frameHeader_length cfg] at hlo hhi
  obtain ⟨j, rfl⟩ := Nat.exists_eq_add_of_le hlo
  obtain ⟨q, c, hq, hc, hflip⟩ := flipBit_encodeFrame cfg p (k := j) hi (by omega)
  rw [frameBytes_eq_encodeFrame, hflip]
  obtain ⟨g, used, hg, hdecode⟩ := decodeLoop_wrongCrc cfg (f := f.restart) ⟨rfl, rfl, rfl⟩ hwf (hq ▸ hp) hc 0
  exact ⟨g, used, hg, hdecode⟩

end Sys2Proof.Machine
end

section
/-! The ends of a connection (R187, R190, R216): DISCONNECT, a failed open, and a transport error in a wait. Each
closes the transport or has none to close, and completes the operation. -/

namespace Sys2Proof.Machine

/-! ## Closing and completing at the start of a step -/

/-- A failure without frame-error flags (R36). -/
theorem completionRecord_absent (ca : Cause) : completionRecord .absent ca false false [] = absentRecord ca := by
  simp [completionRecord, absentRecord]

/-- A success completed at the start of a step only ends the operation (R36). -/
theorem State.begin_completeOk (s : State) (d : List Byte) : s.begin.completeOk d = endedWith s (okRecord d) := rfl

/-- CloseTransport, then a success (R184, R36). -/
theorem State.begin_closeTransport_completeOk (s : State) (d : List Byte) :
    s.begin.closeTransport.completeOk d = closedWith s (okRecord d) := rfl

/-- Teardown is CloseTransport, then a failure with the cause (R245, R246). -/
theorem State.begin_teardown (s : State) (ca : Cause) :
    s.begin.teardown ca false false = closedWith s (absentRecord ca) := by
  rw [← completionRecord_absent]
  rfl

/-! ## DISCONNECT -/

theorem exec_disconnect (s : State) : exec .disconnect s = execDisconnect s := rfl

theorem exec_disconnect_ready {s : State} (h : s.cState = .ready) :
    exec .disconnect s = .next (closedWith s (okRecord [])) := by
  have hready : hostReady s = true := hostReady_iff.2 (.inr h)
  rw [exec_disconnect, execDisconnect, onHostPort_ready hready, State.begin_cState, if_pos h,
    State.begin_closeTransport_completeOk]

theorem exec_disconnect_disconnected {s : State} (h : s.cState = .disconnected) :
    exec .disconnect s = .next { endedWith s (okRecord []) with connected := false } := by
  have hready : hostReady s = true := hostReady_iff.2 (.inl h)
  have hclosed : ¬ s.cState = .ready := by simp [h]
  rw [exec_disconnect, execDisconnect, onHostPort_ready hready, State.begin_cState, if_neg hclosed]
  rfl

theorem exec_disconnect_busy {s : State} (h : hostReady s = false) :
    exec .disconnect s = .next (s.begin.hold .disconnect) := by
  rw [exec_disconnect, execDisconnect, onHostPort_busy h]

/-- What DISCONNECT leaves on a ready port: no connection, no operation in progress, an empty success in the record. -/
def IsDisconnected (t : State) : Prop :=
  t.cState = .disconnected ∧ t.connected = false ∧ t.cOp = .none ∧ t.record = okRecord []

theorem exec_disconnect_isDisconnected {s t : State} (h : hostReady s = true) (ht : exec .disconnect s = .next t) :
    IsDisconnected t := by
  obtain hstate | hstate := hostReady_iff.1 h
  · obtain rfl := Host.Outcome.next.inj ((exec_disconnect_disconnected hstate).symm.trans ht)
    exact ⟨hstate, rfl, rfl, rfl⟩
  · obtain rfl := Host.Outcome.next.inj ((exec_disconnect_ready hstate).symm.trans ht)
    exact ⟨rfl, rfl, rfl, rfl⟩

/-- Every register DISCONNECT writes here already holds the value written, so only the output shows it. -/
theorem IsDisconnected.exec_disconnect {t : State} (h : IsDisconnected t) :
    exec .disconnect t = .next { t with out := [.result (okRecord [])] } := by
  obtain ⟨hstate, hconnected, hop, hrecord⟩ := h
  rw [exec_disconnect_disconnected hstate, endedWith, ← hconnected, ← hop, ← hrecord]

/-- Settles O16: the first DISCONNECT reaches a state in which the second writes nothing new; a busy port holds it. -/
theorem disconnectIsIdempotent : Obligations.DisconnectIsIdempotent := by
  refine ⟨rfl, fun _ h => exec_disconnect_ready h, fun _ h => exec_disconnect_disconnected h, fun s t h ht => ?second,
    fun s hbusy => ?busy⟩
  case second => exact (exec_disconnect_isDisconnected h ht).exec_disconnect
  case busy => exact ⟨s.begin.hold .disconnect, exec_disconnect_busy hbusy, by simp⟩

/-! ## OPEN_FAIL -/

theorem exec_openFail (s : State) : exec .openFail s = execOpenFail s := rfl

/-- Settles O19: OPEN_FAIL returns to `DISCONNECTED` and completes the CONNECT, with no CloseTransport between. -/
theorem openFailReportsTransportError : Obligations.OpenFailReportsTransportError := by
  intro s h
  have hend := State.begin_completeAbsent { s with cState := .disconnected } .transportError
  rw [exec_openFail, execOpenFail, if_pos h]
  exact congrArg Host.Outcome.next hend

/-! ## TX_ERROR and RX_ERROR in a wait -/

theorem exec_txError (s : State) : exec .txError s = execTxError s := rfl

theorem exec_rxError (s : State) : exec .rxError s = execRxError s := rfl

theorem exec_txError_txWait {s : State} (h : s.cState = .txWait) :
    exec .txError s = .next (closedWith s (absentRecord .transportError)) := by
  rw [exec_txError, execTxError, if_pos h, State.begin_teardown]

theorem exec_rxError_readWait {s : State} (h : readWait s = true) :
    exec .rxError s = .next (closedWith s (absentRecord .transportError)) := by
  rw [exec_rxError, execRxError, if_pos h, State.begin_teardown]

/-- Settles O31: in its wait each of the two errors is the Teardown of R245. -/
theorem transportErrorTearsDown : Obligations.TransportErrorTearsDown :=
  ⟨fun _ h => exec_txError_txWait h, fun _ h => exec_rxError_readWait (readWait_iff.2 h)⟩

end Sys2Proof.Machine
end

section
/-! `Decode` on any buffer (R162, R165): it skips garbage without a start marker, every byte has a framer step, and the
first verdict or the end of the buffer leaves the framer idle. -/

namespace Sys2Proof.Machine

/-! ## Resynchronisation -/

/-- Without a start marker an idle framer stays where it is (R150). -/
theorem consumes_startFree {cfg : Params} {f : Framer} (hstate : f.state = .seekStart) {g : List Byte}
    (hg : ∀ b ∈ g, b ≠ cfg.startMarker) : Consumes cfg f g f := by
  induction g with
  | nil => exact .nil f
  | cons b g ih =>
    obtain ⟨hb, hrest⟩ := List.forall_mem_cons.1 hg
    exact .cons (framerStep_notStartMarker hstate hb) (ih hrest)

/-- Settles O12: the restarted framer is still idle behind the garbage, and there it takes the frame. -/
theorem resynchronizesAfterStartFreeGarbage : Obligations.ResynchronizesAfterStartFreeGarbage := by
  intro cfg f g p t hwf hp hg
  obtain ⟨f', hidle, hframe⟩ := decodeLoop_encodeFrame cfg (f := f.restart) ⟨rfl, rfl, rfl⟩ hwf hp g.length t
  refine ⟨f', hidle, ?_⟩
  have hskip := (consumes_startFree (cfg := cfg) (f := f.restart) rfl hg).decodeLoop_append 0 (encodeFrame cfg p ++ t)
  rw [frameBytes_eq_encodeFrame, decodeBuffer, List.append_assoc, hskip, Nat.zero_add, hframe]

/-! ## Every byte has a framer step -/

/-- What the framer's registers of control keep: each sub-flag only in its state, and room for the byte that
`READ_PAYLOAD` awaits (R26, R153). -/
structure FramerControl (f : Framer) : Prop where
  len2 : f.len2 = true → f.state = .readLength
  crcidx : f.crcidx = true → f.state = .readCrc
  room : f.state = .readPayload → f.cnt.toNat < f.len.toNat

theorem FramerIdle.control {f : Framer} (h : FramerIdle f) : FramerControl f := by
  obtain ⟨hstate, hlen2, hcrcidx⟩ := h
  exact ⟨by simp [hlen2], by simp [hcrcidx], by simp [hstate]⟩

/-- A flag that is 0 in every other state is 0 here. -/
theorem flag_eq_false {flag : Bool} {state other : FState} (h : flag = true → state = other) (hne : state ≠ other) :
    flag = false := by
  cases flag with
  | false => rfl
  | true => exact absurd (h rfl) hne

theorem afterLength_control {f : Framer} (hlen2 : f.len2 = false) (hcrcidx : f.crcidx = false) :
    FramerControl (afterLength f) := by
  by_cases h : f.len = 0
  · rw [afterLength_empty h]
    exact ⟨by simp [hlen2], by simp, by simp⟩
  · rw [afterLength_nonempty h]
    exact ⟨by simp [hlen2], by simp [hcrcidx], fun _ => Nat.pos_of_ne_zero fun h0 => h (BitVec.eq_of_toNat_eq h0)⟩

/-- What a framer step answers, as far as the framer's user sees it: the registers of control stay in order, a verdict
leaves the framer idle, and a REJECT names a fault (R156). -/
structure StepAnswer (g : Framer) (v : Verdict) : Prop where
  control : FramerControl g
  idle : v ≠ .pending → FramerIdle g
  flag : ∀ c t, v = .reject c t → c = true ∨ t = true

theorem StepAnswer.pending {g : Framer} (h : FramerControl g) : StepAnswer g .pending :=
  ⟨h, fun hv => absurd rfl hv, nofun⟩

theorem stopVerdict_flag {cfg : Params} {f : Framer} {b : Byte} {c t : Bool} (h : stopVerdict cfg f b = .reject c t) :
    c = true ∨ t = true := by
  obtain ⟨-, -, hv⟩ | ⟨hbad, hv⟩ := stopVerdict_cases cfg f b <;> rw [hv] at h
  · cases h
  · cases h
    simpa using hbad

/-- The framer takes every byte in every state, `RXBUF` having room for it. -/
theorem FramerControl.step (cfg : Params) {f : Framer} (h : FramerControl f) (b : Byte) :
    ∃ g v, framerStep cfg f b = some (g, v) ∧ StepAnswer g v := by
  have hlen2 : f.state ≠ .readLength → f.len2 = false := flag_eq_false h.len2
  have hcrcidx : f.state ≠ .readCrc → f.crcidx = false := flag_eq_false h.crcidx
  cases hs : f.state with
  | seekStart =>
    have hidle : FramerIdle f := ⟨hs, hlen2 (by simp [hs]), hcrcidx (by simp [hs])⟩
    by_cases hb : b = cfg.startMarker
    · subst hb
      exact ⟨_, _, framerStep_startMarker hs, .pending ⟨by simp, by simp [hidle.2.2], by simp⟩⟩
    · exact ⟨_, _, framerStep_notStartMarker hs hb, .pending h⟩
  | readLength =>
    have hidx : f.crcidx = false := hcrcidx (by simp [hs])
    cases hl : f.len2 with
    | true => exact ⟨_, _, framerStep_lengthSecond hs hl b, .pending (afterLength_control rfl hidx)⟩
    | false =>
      cases hb : b.msb with
      | true =>
        refine ⟨_, _, framerStep_lengthFirst hs hl hb, .pending ⟨fun _ => hs, ?_, ?_⟩⟩
        · simp [hidx]
        · simp [hs]
      | false => exact ⟨_, _, framerStep_lengthShort hs hl hb, .pending (afterLength_control hl hidx)⟩
  | readPayload =>
    have hroom := h.room hs
    have hl : f.len2 = false := hlen2 (by simp [hs])
    by_cases hlast : f.cnt.toNat + 1 = f.len.toNat
    · exact ⟨_, _, framerStep_payloadLast hs hlast, .pending ⟨by simp [hl], by simp, by simp⟩⟩
    · have hmore : f.cnt.toNat + 1 < f.len.toNat := by omega
      have hcnt : (f.cnt + 1).toNat = f.cnt.toNat + 1 := by
        have := f.len.isLt
        bv_omega
      refine ⟨_, _, framerStep_payloadMore hs hmore, .pending ⟨by simp [hl], ?_, fun _ => ?_⟩⟩
      · simp [hcrcidx (by simp [hs])]
      · exact hcnt ▸ hmore
  | readCrc =>
    have hl : f.len2 = false := hlen2 (by simp [hs])
    cases hidx : f.crcidx with
    | true => exact ⟨_, _, framerStep_crcSecond hs hidx b, .pending ⟨by simp [hl], by simp, by simp⟩⟩
    | false => exact ⟨_, _, framerStep_crcFirst hs hidx b, .pending ⟨by simp [hl], fun _ => hs, by simp [hs]⟩⟩
  | readStop =>
    have hidle : FramerIdle { f with state := .seekStart } := ⟨rfl, hlen2 (by simp [hs]), hcrcidx (by simp [hs])⟩
    exact ⟨_, _, framerStep_readStop hs b, hidle.control, fun _ => hidle, fun _ _ => stopVerdict_flag⟩

/-! ## DECODE -/

/-- The three ends of `Decode` (R165), `n` bytes being at hand: a payload, a REJECT with a flag, or all of the bytes
taken without a verdict. -/
def DecodeEnds (d : Decoded) (n : Nat) : Prop :=
  (d.status = .ok ∧ d.cause = .none ∧ d.feCrc = false ∧ d.feStop = false ∧ d.used ≤ n) ∨
  (d.status = .absent ∧ d.cause = .frameError ∧ (d.feCrc = true ∨ d.feStop = true) ∧ d.data = [] ∧ d.used ≤ n) ∨
  (d.status = .absent ∧ d.cause = .incomplete ∧ d.feCrc = false ∧ d.feStop = false ∧ d.data = [] ∧ d.used = n)

/-- `Decode` reaches one of its ends, by induction on the bytes still to come. -/
theorem decodeLoop_ends (cfg : Params) {f : Framer} (h : FramerControl f) (used : Nat) (buf : List Byte) :
    ∃ f' d, decodeLoop cfg f used buf = some (f', d) ∧ FramerIdle f' ∧ DecodeEnds d (used + buf.length) := by
  induction buf generalizing f used with
  | nil => exact ⟨_, _, rfl, ⟨rfl, rfl, rfl⟩, .inr (.inr ⟨rfl, rfl, rfl, rfl, rfl, rfl⟩)⟩
  | cons b buf ih =>
    obtain ⟨g, v, hstep, hg⟩ := h.step cfg b
    have hused : used + 1 ≤ used + (b :: buf).length := by simp
    cases v with
    | pending =>
      obtain ⟨f', d, hd, hidle, hends⟩ := ih hg.control (used + 1)
      refine ⟨f', d, ?_, hidle, ?_⟩
      · rw [decodeLoop, hstep]
        exact hd
      · rwa [List.length_cons, Nat.add_comm buf.length, ← Nat.add_assoc]
    | accept p =>
      exact ⟨_, _, decodeLoop_accept hstep used buf, hg.idle nofun, .inl ⟨rfl, rfl, rfl, rfl, hused⟩⟩
    | reject c t =>
      exact ⟨_, _, decodeLoop_reject hstep used buf, hg.idle nofun,
        .inr (.inl ⟨rfl, rfl, hg.flag c t rfl, rfl, hused⟩)⟩

theorem decodeBuffer_ends (cfg : Params) (f : Framer) (buf : List Byte) :
    ∃ f' d, decodeBuffer cfg f buf = some (f', d) ∧ FramerIdle f' ∧ DecodeEnds d buf.length := by
  have hidle : FramerIdle f.restart := ⟨rfl, rfl, rfl⟩
  have hends := decodeLoop_ends cfg hidle.control 0 buf
  rwa [Nat.zero_add] at hends

/-- The record DECODE leaves (R165). -/
def decodedRecord (d : Decoded) : Record := ⟨d.status, d.cause, d.feCrc, d.feStop, d.data⟩

/-- `Complete` writes the flags of a decoded REJECT, and the other two ends have none (R36). -/
theorem completionRecord_decoded {d : Decoded} {n : Nat} (h : DecodeEnds d n) :
    completionRecord d.status d.cause d.feCrc d.feStop d.data = decodedRecord d := by
  obtain ⟨-, -, hc, ht, -⟩ | ⟨-, hcause, -⟩ | ⟨-, -, hc, ht, -⟩ := h
  · simp [completionRecord, decodedRecord, hc, ht]
  · simp [completionRecord, decodedRecord, hcause]
  · simp [completionRecord, decodedRecord, hc, ht]

theorem exec_decode_ready {s : State} (h : hostReady s = true) {buf : List Byte} {f' : Framer} {d : Decoded}
    (hd : decodeBuffer s.cfg s.framer buf = some (f', d)) (hends : DecodeEnds d buf.length) :
    exec (.decode buf) s = .next { endedWith s (decodedRecord d) with framer := f' } := by
  have hrun : exec (.decode buf) s = execDecode buf s := rfl
  rw [hrun, execDecode, onHostPort_ready h, State.begin_cfg, State.begin_framer, hd, orBounds_some, State.complete,
    completionRecord_decoded hends]
  rfl

/-- Settles O14: DECODE ends as `Decode` does, which has a step for every byte. -/
theorem decodeCompletesOnEveryBuffer : Obligations.DecodeCompletesOnEveryBuffer := by
  intro s buf h
  obtain ⟨f', d, hd, hidle, hends⟩ := decodeBuffer_ends s.cfg s.framer buf
  exact ⟨f', d, hidle, hd, exec_decode_ready h hd hends, hends⟩

end Sys2Proof.Machine
end

section
/-! The framer keeps its invariant (R26, R44 (I3), R153, R158): the registers of control by the lemma about them, and
here what it has stored. -/

namespace Sys2Proof.Machine

/-- What the framer keeps of the bytes stored: after the payload none are missing, `f_crc` is the CRC of those stored,
and `RXBUF` is canonical and in range. -/
structure FramerData (f : Framer) : Prop where
  counted : f.state = .readCrc ∨ f.state = .readStop → f.cnt = f.len
  crc : PastLength f → f.crc = crc16 (memBytes f.rxbuf f.cnt.toNat)
  wf : f.rxbuf.wf = true
  within : f.rxbuf.within 32767 = true

theorem framerInv_iff {f : Framer} : FramerInv f ↔ FramerControl f ∧ FramerData f := by
  constructor
  · rintro ⟨hlen2, hcrcidx, hroom, hcounted, hcrc, hwf, hwithin⟩
    exact ⟨⟨hlen2, hcrcidx, hroom⟩, hcounted, hcrc, hwf, hwithin⟩
  · rintro ⟨⟨hlen2, hcrcidx, hroom⟩, hcounted, hcrc, hwf, hwithin⟩
    exact ⟨hlen2, hcrcidx, hroom, hcounted, hcrc, hwf, hwithin⟩

theorem FramerInv.control {f : Framer} (h : FramerInv f) : FramerControl f := (framerInv_iff.1 h).1

theorem FramerInv.data {f : Framer} (h : FramerInv f) : FramerData f := (framerInv_iff.1 h).2

/-- Before the payload begins only the form of `RXBUF` is kept. -/
theorem FramerData.of_not_pastLength {f g : Framer} (h : FramerData f) (hpast : ¬ PastLength g)
    (hrxbuf : g.rxbuf = f.rxbuf) : FramerData g :=
  ⟨fun hstate => absurd (.inr hstate) hpast, fun hp => absurd hp hpast, hrxbuf ▸ h.wf, hrxbuf ▸ h.within⟩

theorem afterLength_data {f : Framer} (hwf : f.rxbuf.wf = true) (hwithin : f.rxbuf.within 32767 = true) :
    FramerData (afterLength f) := by
  by_cases h : f.len = 0
  · rw [afterLength_empty h]
    exact ⟨fun _ => h.symm, fun _ => by simp [crcBytes, crcInitial], hwf, hwithin⟩
  · rw [afterLength_nonempty h]
    exact ⟨by simp, fun _ => by simp [crcBytes, crcInitial], hwf, hwithin⟩

/-- The CRC runs along with the bytes stored (R153). -/
theorem crcByte_crc16_memBytes {m : Memory} (hm : m.wf = true) (n : Nat) (b : Byte) :
    crcByte (crc16 (memBytes m n)) b = crc16 (memBytes (memWrite m n b) (n + 1)) := by
  rw [memBytes_memWrite_succ hm, crc16_eq, crc16_eq, crcBytes_append]
  rfl

theorem framerStep_data {cfg : Params} {f g : Framer} {b : Byte} {v : Verdict} (hcontrol : FramerControl f)
    (h : FramerData f) (hstep : framerStep cfg f b = some (g, v)) : FramerData g := by
  obtain ⟨hs, rfl, -⟩ | ⟨hs, rfl, -⟩ | ⟨hs, hg, -⟩ | ⟨hs, rfl, -⟩ | ⟨hs, rfl, -⟩ := framerStep_cases hstep
  · unfold stepSeekStart
    split
    · exact h.of_not_pastLength (by simp) rfl
    · exact h
  · unfold stepReadLength
    split
    · exact afterLength_data h.wf h.within
    · split
      · exact h.of_not_pastLength (by simp [hs]) rfl
      · exact afterLength_data h.wf h.within
  · have hroom := hcontrol.room hs
    have hcnt : (f.cnt + 1).toNat = f.cnt.toNat + 1 := by
      have := f.len.isLt
      bv_omega
    have hcrc : crcByte f.crc b = crc16 (memBytes (memWrite f.rxbuf f.cnt.toNat b) (f.cnt + 1).toNat) := by
      rw [h.crc (.inl hs), crcByte_crc16_memBytes h.wf, hcnt]
    have hwf := memWrite_wf h.wf f.cnt.toNat b
    obtain ⟨hin, ⟨hlast, rfl⟩ | ⟨-, rfl⟩⟩ := stepReadPayload_cases hg
    · exact ⟨fun _ => hlast, fun _ => hcrc, hwf, memWrite_within h.within hin b⟩
    · exact ⟨by simp [hs], fun _ => hcrc, hwf, memWrite_within h.within hin b⟩
  · have hcounted := h.counted (.inl hs)
    have hcrc := h.crc (.inr (.inl hs))
    unfold stepReadCrc
    split
    · exact ⟨fun _ => hcounted, fun _ => hcrc, h.wf, h.within⟩
    · exact ⟨fun _ => hcounted, fun _ => hcrc, h.wf, h.within⟩
  · exact h.of_not_pastLength (by simp) rfl

/-- From a framer that meets its invariant every byte has a step, which keeps it. -/
theorem FramerInv.step (cfg : Params) {f : Framer} (h : FramerInv f) (b : Byte) :
    ∃ g v, framerStep cfg f b = some (g, v) ∧ FramerInv g ∧ StepAnswer g v := by
  obtain ⟨g, v, hstep, hanswer⟩ := h.control.step cfg b
  exact ⟨g, v, hstep, framerInv_iff.2 ⟨hanswer.control, framerStep_data h.control h.data hstep⟩, hanswer⟩

/-- An idle framer needs nothing but the form of `RXBUF`. -/
theorem FramerIdle.inv {f : Framer} (h : FramerIdle f) (hwf : f.rxbuf.wf = true)
    (hwithin : f.rxbuf.within 32767 = true) : FramerInv f := by
  have hstate : f.state = .seekStart := h.1
  exact framerInv_iff.2 ⟨FramerIdle.control h, by simp [hstate], by simp [hstate], hwf, hwithin⟩

theorem FramerInv.restart {f : Framer} (h : FramerInv f) : FramerInv f.restart :=
  FramerIdle.inv ⟨rfl, rfl, rfl⟩ h.data.wf h.data.within

theorem decodeLoop_keepsInv {cfg : Params} {f g : Framer} {used : Nat} {buf : List Byte} {d : Decoded}
    (h : FramerInv f) (hd : decodeLoop cfg f used buf = some (g, d)) : FramerInv g := by
  induction buf generalizing f used with
  | nil =>
    cases hd
    exact h.restart
  | cons b buf ih =>
    obtain ⟨f', v, hstep, hinv, -⟩ := h.step cfg b
    rw [decodeLoop, hstep] at hd
    cases v with
    | pending => exact ih hinv hd
    | accept p =>
      cases hd
      exact hinv
    | reject c t =>
      cases hd
      exact hinv

end Sys2Proof.Machine
end

section
/-! The host port and the step's choice (R102, R181, R183): what is held off, what is only reported as not connected,
which input a step takes. -/

namespace Sys2Proof.Machine

/-! ## Operations on the host port -/

/-- Settles O36: each of them goes through the host port, those that need the transport by way of the check for it,
and the busy port holds it (R181). -/
theorem busyPortHoldsTheOperation : Obligations.BusyPortHoldsTheOperation := by
  intro s i hi hbusy
  cases i with
  | crc16 _ | encode _ | decode _ | connect | disconnect | crcInit | crcByte _ =>
    rw [exec]
    exact onHostPort_busy hbusy
  | reserved0 | reservedD | reservedE | reservedF =>
    rw [exec]
    exact refuseSelect_busy _ hbusy
  | sendCommand _ _ _ _ | readOne _ _ | xmit _ | flush | rawDrain _ _ | fwVersion | getValues _ | forwardCan _ _
  | pingCan | getCustomConfig _ | bmsGetValues =>
    rw [exec]
    exact onConnection_busy hbusy
  | reset | rxByte _ | rxError | txDrained | txError | openOk | openFail | tick | frameS _ _ _ | frameL _ _ _
  | lenS _ | lenL _ => cases hi

/-- Settles O34: each of them goes through the check for the connection first (R183). -/
theorem notConnectedIsReported : Obligations.NotConnectedIsReported := by
  intro s i hi hready hconnected
  rw [← State.begin_completeAbsent]
  cases i with
  | sendCommand _ _ _ _ | readOne _ _ | xmit _ | flush | rawDrain _ _ | fwVersion | getValues _ | forwardCan _ _
  | pingCan | getCustomConfig _ | bmsGetValues =>
    rw [exec]
    exact onConnection_notConnected hready hconnected
  | crc16 _ | encode _ | decode _ | connect | disconnect | crcInit | crcByte _ | reserved0 | reservedD | reservedE
  | reservedF | reset | rxByte _ | rxError | txDrained | txError | openOk | openFail | tick | frameS _ _ _
  | frameL _ _ _ | lenS _ | lenL _ => cases hi

/-- Settles O2: the port is ready, so the byte is taken; the example by evaluation. -/
theorem crcByteUpdates : Obligations.CrcByteUpdates := by
  refine ⟨fun _ b h => exec_crcByte_ready b h, fun s h hcrc => ⟨_, exec_crcByte_ready 0x31#8 h, ?_⟩⟩
  rw [endedWithCrc_crc, hcrc]
  decide

/-! ## Which input a step takes -/

/-- Settles O37: `fetch` looks at the held operations first. -/
theorem heldOperationIsAcceptedFirst : Obligations.HeldOperationIsAcceptedFirst := by
  intro s i rest hready hheld
  rw [step, fetch_held hready hheld]

theorem step_presented {s t : State} {i : Instr} (hheld : hostReady s = true → s.held = [])
    (h : fetchPresented s = .run i t) : step s = exec i t := by
  rw [step, fetch_presented hheld, h]

theorem step_stopped {s : State} {r : Refusal} (hheld : hostReady s = true → s.held = [])
    (h : fetchPresented s = .stop r) : step s = .refused r := by
  rw [step, fetch_presented hheld, h]

theorem step_idle {s : State} (hheld : hostReady s = true → s.held = []) (hinputs : s.inputs = []) :
    step s = transportTurn s := by
  have hidle : fetchPresented s = .idle := by rw [fetchPresented, hinputs]
  rw [step, fetch_presented hheld, hidle]

/-- Settles O57: with nothing held to accept, the step does what the first input presented decodes to. -/
theorem stepRunsTheDecodedInput : Obligations.StepRunsTheDecodedInput := by
  intro s x rest hinputs hheld
  refine ⟨fun i tail hd hwf => step_presented hheld ?_, fun i tail hd hwf => step_stopped hheld ?_,
    fun e hd => step_stopped hheld ?_⟩
  · simp [fetchPresented, hinputs, hd, hwf]
  · simp [fetchPresented, hinputs, hd, hwf]
  · simp [fetchPresented, hinputs, hd]

end Sys2Proof.Machine
end

section
/-! What is encoded from `TXBUF` (R95, R131, R132, R193, R205): ENCODE, XMIT and the requests copy their payload there
and make its frame. -/

namespace Sys2Proof.Machine

/-! ## The copy to `TXBUF` -/

/-- `m` is the buffer `m₀` after a payload has been copied to its beginning: the payload is stored and the buffer's
form and range are kept. -/
structure Loaded (m₀ m : Memory) (p : List Byte) : Prop where
  stored : StoredAt m₀ m 0 p
  wf : m.wf = true
  within : m₀.within 32767 = true → m.within 32767 = true

theorem loaded_of_bufLoad {m₀ m : Memory} {p : List Byte} (hwf : m₀.wf = true) (hp : p.length ≤ 32767)
    (h : bufLoad 32767 m₀ 0 p = some m) : Loaded m₀ m p := by
  obtain ⟨m', hm', hwf', hwithin, hread⟩ := bufLoad_spec (size := 32767) p hwf (i := 0) (by omega)
  obtain rfl : m = m' := Option.some.inj (h.symm.trans hm')
  refine ⟨⟨fun j hj => ?_, fun j hj => ?_⟩, hwf', hwithin⟩
  · rw [hread, if_pos (by omega), Nat.zero_add, Nat.sub_zero]
  · rw [hread, if_neg (by omega)]

/-! ## ENCODE, XMIT and the requests -/

theorem exec_encode_ready {s : State} {p : List Byte} (hready : hostReady s = true) (hwf : s.txbuf.wf = true)
    (hp : p.length ≤ 32767) :
    ∃ m, Loaded s.txbuf m p ∧
      exec (.encode p) s = .next { endedWith s (okRecord (frameBytes s.cfg p)) with txbuf := m, crc := crc16 p } := by
  obtain ⟨m, hm, -, -, -, -, hcopy⟩ :=
    copy_encode (s := s.begin) (k := fun s frame => .next (s.completeOk frame)) hwf hp
  refine ⟨m, loaded_of_bufLoad hwf hp hm, ?_⟩
  have hrun : exec (.encode p) s = execEncode p s := rfl
  rw [hrun, execEncode, onHostPort_ready hready, hcopy, frameBytes_eq_encodeFrame]
  rfl

theorem exec_xmit_connected {s : State} {p : List Byte} (hready : hostReady s = true) (hconnected : s.connected = true)
    (hwf : s.txbuf.wf = true) (hp : p.length ≤ 32767) :
    ∃ m, Loaded s.txbuf m p ∧ exec (.xmit p) s = .next { sent s (frameBytes s.cfg p) with
      txbuf := m, crc := crc16 p, cOp := .none, record := okRecord []
      out := [.tx (frameBytes s.cfg p), .result (okRecord [])] } := by
  obtain ⟨m, hm, -, -, -, -, hcopy⟩ :=
    copy_encode (s := s.begin) (k := fun s frame => .next ((s.txAppend frame).completeOk [])) hwf hp
  refine ⟨m, loaded_of_bufLoad hwf hp hm, ?_⟩
  have hrun : exec (.xmit p) s = execXmit p s := rfl
  rw [hrun, execXmit, onConnection_connected hready hconnected, hcopy, frameBytes_eq_encodeFrame]
  rfl

/-- SEND_COMMAND and the six commands are one request, of their payload and their timeout (R95, R193). -/
theorem exec_request {s : State} {i : Instr} {p : List Byte} {t : U32} (hreq : requestOf s.cfg i = some (p, t))
    (hready : hostReady s = true) (hconnected : s.connected = true) : exec i s = sendRequest p t s.begin := by
  cases i with
  | sendCommand _ _ _ _ | fwVersion | getValues _ | forwardCan _ _ | pingCan | getCustomConfig _ | bmsGetValues =>
    cases hreq
    exact onConnection_connected hready hconnected
  | readOne _ _ | xmit _ | flush | rawDrain _ _ | crc16 _ | encode _ | decode _ | connect | disconnect | crcInit
  | crcByte _ | reserved0 | reservedD | reservedE | reservedF | reset | rxByte _ | rxError | txDrained | txError
  | openOk | openFail | tick | frameS _ _ _ | frameL _ _ _ | lenS _ | lenL _ => cases hreq

/-- The operand limits leave room for the command byte (R101). -/
theorem requestOf_length_le {cfg : Params} {i : Instr} {p : List Byte} {t : U32} {n : Nat}
    (hreq : requestOf cfg i = some (p, t)) (hwf : i.wf n = true) : p.length ≤ 32767 := by
  cases i with
  | sendCommand _ _ _ _ | getValues _ | forwardCan _ _ =>
    cases hreq
    exact of_decide_eq_true hwf
  | fwVersion | pingCan | getCustomConfig _ | bmsGetValues =>
    cases hreq
    simp
  | readOne _ _ | xmit _ | flush | rawDrain _ _ | crc16 _ | encode _ | decode _ | connect | disconnect | crcInit
  | crcByte _ | reserved0 | reservedD | reservedE | reservedF | reset | rxByte _ | rxError | txDrained | txError
  | openOk | openFail | tick | frameS _ _ _ | frameL _ _ _ | lenS _ | lenL _ => cases hreq

theorem exec_request_connected {s : State} {i : Instr} {p : List Byte} {t : U32} (hready : hostReady s = true)
    (hconnected : s.connected = true) (hwf : s.txbuf.wf = true) (hreq : requestOf s.cfg i = some (p, t))
    (hp : p.length ≤ 32767) :
    ∃ m, Loaded s.txbuf m p ∧ exec i s = .next { sent s (frameBytes s.cfg p) with
      txbuf := m, crc := crc16 p, tLat := t, cOp := .sendCommand, cState := .txWait } := by
  obtain ⟨m, hm, -, -, -, hsend⟩ := sendRequest_eq (t := t) (s := s.begin) hwf hp
  refine ⟨m, loaded_of_bufLoad hwf hp hm, ?_⟩
  rw [exec_request hreq hready hconnected, hsend, frameBytes_eq_encodeFrame]
  rfl

/-- Settles O7: the payload is copied and its frame made; the length by the two forms of the length field. -/
theorem encodeReturnsTheFrame : Obligations.EncodeReturnsTheFrame := by
  refine ⟨fun _ => rfl, fun s p hready hwf hp => ⟨?_, ?_⟩⟩
  · obtain ⟨m, hm, hexec⟩ := exec_encode_ready hready hwf hp
    exact ⟨m, hm.stored, hexec⟩
  · rw [frameBytes_eq_encodeFrame, encodeFrame, frameOf]
    simp only [List.length_append, frameHeader_length, crcField_length, List.length_singleton]
    split <;> omega

/-- Settles O20: each of them is a request whose payload fits. -/
theorem requestsAreSentAsFrames : Obligations.RequestsAreSentAsFrames := by
  intro s i p t hstate hconnected hwf hi hreq
  obtain ⟨m, hm, hexec⟩ :=
    exec_request_connected (hostReady_iff.2 (.inr hstate)) hconnected hwf hreq (requestOf_length_le hreq hi)
  exact ⟨m, hm.stored, hexec⟩

/-- Settles O25: XMIT is a request's frame with the completion in place of the wait. -/
theorem xmitWritesAndCompletes : Obligations.XmitWritesAndCompletes := by
  intro s p hstate hconnected hwf hp
  obtain ⟨m, hm, hexec⟩ := exec_xmit_connected (hostReady_iff.2 (.inr hstate)) hconnected hwf hp
  exact ⟨m, hm.stored, hexec⟩

/-! ## The frame's format -/

/-- From 128 bytes on the encoder's length field is the long one (R82, R85). -/
theorem lenField_long {n : Nat} (hlong : ¬ n < 128) (hn : n ≤ 32767) :
    lenField n = lenFieldLong (BitVec.ofNat 15 n) := by
  have hhigh : (0x80#8 ||| BitVec.ofNat 8 (n / 256)) = 1#1 ++ (BitVec.ofNat 15 n).extractLsb' 8 7 := by
    refine BitVec.eq_of_toNat_eq ?_
    have hval : n / 256 % 2 ^ 8 = (n % 2 ^ 15) >>> 8 % 2 ^ 7 := by
      rw [Nat.shiftRight_eq_div_pow]
      omega
    rw [BitVec.toNat_or, BitVec.toNat_append, BitVec.extractLsb'_toNat, BitVec.toNat_ofNat, BitVec.toNat_ofNat, hval]
    rfl
  have hlow : BitVec.ofNat 8 n = (BitVec.ofNat 15 n).extractLsb' 0 8 := by
    refine BitVec.eq_of_toNat_eq ?_
    simp only [BitVec.extractLsb'_toNat, BitVec.toNat_ofNat, Nat.shiftRight_zero]
    omega
  rw [lenField, if_neg hlong, lenFieldLong, hhigh, hlow]

/-- Settles O8: header, payload, CRC field and stop byte are the format's, by the form of the length field. -/
theorem encodedFrameHasTheFormat : Obligations.EncodedFrameHasTheFormat := by
  intro cfg p hp
  rw [encodeFrame, frameOf, frameHeader]
  split
  · next hshort => simp [lenField, hshort, wireFrameS]
  · next hlong => simp [lenField_long hlong hp, wireFrameL]

end Sys2Proof.Machine
end

section
/-! The ends of a read, and the operations that open a connection or start a wait on it (R185, R195, R200, R201, R207,
R208, R210). -/

namespace Sys2Proof.Machine

/-! ## AwaitFail and ArmAwait at the start of a step -/

/-- A failure with the flags of a REJECT (R36). -/
theorem completionRecord_frameError (c t : Bool) :
    completionRecord .absent .frameError c t [] = frameErrorRecord c t := by
  simp [completionRecord, frameErrorRecord]

theorem State.begin_awaitFail_sendCommand {s : State} (h : s.cOp = .sendCommand) (ca : Cause) (c t : Bool) :
    awaitFail ca c t s.begin = closedWith s (completionRecord .absent ca c t []) :=
  awaitFail_sendCommand h

theorem State.begin_awaitFail_other {s : State} (h : s.cOp ≠ .sendCommand) (ca : Cause) (c t : Bool) :
    awaitFail ca c t s.begin = { endedWith s (completionRecord .absent ca c t []) with
      framer := idleFramer s.framer, cState := .ready } :=
  awaitFail_other h

/-- A deadline of 0 expires as it is armed (R195). -/
theorem armAwait_expired {t : U32} (h : t = 0#32) (s : State) :
    armAwait t s = awaitFail .timeout false false { s with timer := 0#32, cState := .awaiting } := by
  subst h
  exact armAwait_zero s

/-! ## CONNECT -/

theorem exec_connect (s : State) : exec .connect s = execConnect s := rfl

theorem exec_connect_disconnected {s : State} (h : s.cState = .disconnected) :
    exec .connect s = .next s.begin.openTransport := by
  have hclosed : ¬ s.cState = .ready := by simp [h]
  rw [exec_connect, execConnect, onHostPort_ready (hostReady_iff.2 (.inl h)), State.begin_cState, if_neg hclosed]

theorem exec_connect_ready {s : State} (h : s.cState = .ready) :
    exec .connect s = .next s.begin.closeTransport.openTransport := by
  rw [exec_connect, execConnect, onHostPort_ready (hostReady_iff.2 (.inr h)), State.begin_cState, if_pos h]

/-- Settles O15: the two states in which CONNECT is accepted differ in the transport there is to close. -/
theorem connectOpensATransport : Obligations.ConnectOpensATransport :=
  ⟨rfl, fun _ h => exec_connect_disconnected h, fun _ h => exec_connect_ready h⟩

/-! ## READ_ONE, FLUSH, RAW_DRAIN -/

section
variable {s : State}

theorem exec_readOne_armed {useDefault : Bool} {timeout : U32} (hready : hostReady s = true)
    (hconnected : s.connected = true) (ht : effectiveTimeout s useDefault timeout ≠ 0#32) :
    exec (.readOne useDefault timeout) s = .next { s with
      timer := effectiveTimeout s useDefault timeout, cOp := .readOne, cState := .awaiting, out := [] } := by
  have hrun : exec (.readOne useDefault timeout) s = execReadOne useDefault timeout s := rfl
  rw [hrun, execReadOne, onConnection_connected hready hconnected]
  exact congrArg Host.Outcome.next (armAwait_pos ht)

theorem exec_readOne_zero {useDefault : Bool} {timeout : U32} (hready : hostReady s = true)
    (hconnected : s.connected = true) (ht : effectiveTimeout s useDefault timeout = 0#32) :
    exec (.readOne useDefault timeout) s = .next { endedWith s (absentRecord .timeout) with
      timer := 0#32, framer := idleFramer s.framer, cState := .ready } := by
  have hrun : exec (.readOne useDefault timeout) s = execReadOne useDefault timeout s := rfl
  have htimer : effectiveTimeout s.begin useDefault timeout = 0#32 := ht
  rw [hrun, execReadOne, onConnection_connected hready hconnected, armAwait_expired htimer, ← completionRecord_absent]
  exact congrArg Host.Outcome.next
    (State.begin_awaitFail_other (s := { s with timer := 0#32, cOp := .readOne, cState := .awaiting }) nofun _ _ _)

theorem exec_flush_connected (hready : hostReady s = true) (hconnected : s.connected = true) :
    exec .flush s = .next { s with cOp := .flush, cState := .txWait, out := [] } := by
  have hrun : exec .flush s = execFlush s := rfl
  rw [hrun, execFlush, onConnection_connected hready hconnected]
  rfl

theorem exec_rawDrain_collecting {window perRead : U32} (hready : hostReady s = true) (hconnected : s.connected = true)
    (hwindow : window ≠ 0#32) : exec (.rawDrain window perRead) s = .next { s with
      dLen := 0, perRead := perRead, timer := window, timer2 := perRead, cOp := .rawDrain, cState := .rawRead
      out := [] } := by
  have hrun : exec (.rawDrain window perRead) s = execRawDrain window perRead s := rfl
  rw [hrun, execRawDrain, onConnection_connected hready hconnected, if_neg hwindow]
  rfl

theorem exec_rawDrain_zero {perRead : U32} (hready : hostReady s = true) (hconnected : s.connected = true) :
    exec (.rawDrain 0#32 perRead) s = .next { endedWith s (okRecord []) with
      dLen := 0, perRead := perRead, timer := 0#32, timer2 := perRead, cState := .ready } := by
  have hrun : exec (.rawDrain 0#32 perRead) s = execRawDrain 0#32 perRead s := rfl
  rw [hrun, execRawDrain, onConnection_connected hready hconnected, if_pos rfl]
  rfl

end

/-- Settles O24: `ArmAwait` of the effective timeout, which at 0 is a failed read of READ_ONE. -/
theorem readOneArmsTheDeadline : Obligations.ReadOneArmsTheDeadline := by
  intro s useDefault timeout hstate hconnected
  have hready : hostReady s = true := hostReady_iff.2 (.inr hstate)
  refine ⟨fun ht => exec_readOne_armed hready hconnected ht, fun ht => ?_⟩
  rw [exec_readOne_zero hready hconnected ht, ← hstate]
  rfl

/-- Settles O26: a connected port accepts FLUSH. -/
theorem flushWaitsForTheDrain : Obligations.FlushWaitsForTheDrain :=
  fun _ hstate hconnected => exec_flush_connected (hostReady_iff.2 (.inr hstate)) hconnected

/-- Settles O27: with a window the drain collects, without one it is over. -/
theorem rawDrainStarts : Obligations.RawDrainStarts := by
  intro s window perRead hstate hconnected
  have hready : hostReady s = true := hostReady_iff.2 (.inr hstate)
  refine ⟨fun hwindow => exec_rawDrain_collecting hready hconnected hwindow, fun hwindow => ?_⟩
  rw [hwindow, exec_rawDrain_zero hready hconnected, ← hstate]
  rfl

/-! ## TX_DRAINED -/

section
variable {s : State}

theorem exec_txDrained (s : State) : exec .txDrained s = execTxDrained s := rfl

theorem exec_txDrained_txWait (h : s.cState = .txWait) : exec .txDrained s = .next (drained s.begin) := by
  rw [exec_txDrained, execTxDrained, if_pos h]

theorem drained_sendCommand (h : s.cOp = .sendCommand) :
    drained s = armAwait s.tLat { s with net := { s.net with undrained := [] } } := by simp [drained, h]

theorem drained_sendCommand_armed (h : s.cOp = .sendCommand) (ht : s.tLat ≠ 0#32) :
    drained s.begin = { s with
      net := { s.net with undrained := [] }, timer := s.tLat, cState := .awaiting, out := [] } := by
  rw [drained_sendCommand (s := s.begin) h, State.begin_tLat, armAwait_pos ht]
  rfl

/-- Closing a transport drops its undrained bytes anyway, so a Teardown does not show that they were cleared. -/
theorem drained_sendCommand_zero (h : s.cOp = .sendCommand) (ht : s.tLat = 0#32) :
    drained s.begin = closedWith { s with timer := 0#32 } (absentRecord .timeout) := by
  rw [drained_sendCommand (s := s.begin) h, State.begin_tLat, armAwait_expired ht, ← completionRecord_absent]
  exact State.begin_awaitFail_sendCommand
    (s := { s with net := { s.net with undrained := [] }, timer := 0#32, cState := .awaiting }) h _ _ _

theorem drained_flush (h : s.cOp = .flush) :
    drained s.begin = { endedWith s (okRecord []) with net := { s.net with undrained := [] }, cState := .ready } := by
  simp only [drained, State.begin_cOp, h]
  rfl

end

/-- Settles O21: by the operation that waits, and for SEND_COMMAND by its timeout. -/
theorem drainContinuesTheOperation : Obligations.DrainContinuesTheOperation := by
  refine ⟨fun s hs hop ht => ?_, fun s hs hop ht => ?_, fun s hs hop => ?_⟩
  · rw [exec_txDrained_txWait hs, drained_sendCommand_armed hop ht]
  · rw [exec_txDrained_txWait hs, drained_sendCommand_zero hop ht]
  · rw [exec_txDrained_txWait hs, drained_flush hop]

end Sys2Proof.Machine
end

section
/-! The settle wait and the deadlines (R186, R188, R198, R214): a counter loaded with `T` expires at its `T`-th TICK. -/

namespace Sys2Proof.Machine

/-! ## Counters -/

theorem expires_iff {t : U32} : expires t = true ↔ t.toNat ≤ 1 := by simp [expires]

theorem not_expires_iff {t : U32} : expires t = false ↔ 1 < t.toNat := by simp [expires]

/-- A counter `j` TICKs after it was loaded. -/
theorem counter_toNat {t : U32} {j : Nat} (h : j ≤ t.toNat) : (t - BitVec.ofNat 32 j).toNat = t.toNat - j := by
  bv_omega

theorem counter_succ (t : U32) (j : Nat) : t - BitVec.ofNat 32 j - 1 = t - BitVec.ofNat 32 (j + 1) := by
  bv_omega

theorem counter_zero (t : U32) : t - BitVec.ofNat 32 0 = t := BitVec.sub_zero t

theorem toNat_pos {t : U32} (h : t ≠ 0#32) : 0 < t.toNat :=
  Nat.pos_of_ne_zero fun h0 => h (BitVec.eq_of_toNat_eq h0)

/-! ## Runs of TICKs -/

theorem execAll_ticks {u : Nat → State} {n : Nat} (step : ∀ j < n, exec .tick (u j) = .next (u (j + 1))) :
    execAll (List.replicate n .tick) (u 0) = .next (u n) := by
  induction n with
  | zero => rfl
  | succ n ih =>
    rw [List.replicate_succ', execAll_append (ih fun j hj => step j (by omega)), execAll_cons (step n (by omega))]
    rfl

theorem execAll_ticks_last {u : Nat → State} {n : Nat} {t : State}
    (step : ∀ j < n, exec .tick (u j) = .next (u (j + 1))) (last : exec .tick (u n) = .next t) :
    execAll (List.replicate (n + 1) .tick) (u 0) = .next t := by
  rw [List.replicate_succ', execAll_append (execAll_ticks step), execAll_cons last]
  rfl

/-- A TICK does not look at what the step before put out. -/
theorem execAll_ticks_begin {n : Nat} (hn : n ≠ 0) (s : State) :
    execAll (List.replicate n .tick) s = execAll (List.replicate n .tick) s.begin := by
  obtain ⟨n, rfl⟩ := Nat.exists_eq_succ_of_ne_zero hn
  rfl

/-- `s` with `timer` at `t` and nothing put out. -/
def State.atTimer (s : State) (t : U32) : State := { s with timer := t, out := [] }

section
variable {s t : State} {T : U32}

/-- A state whose TICK counts `timer` down is, after fewer TICKs than `timer` says, at what is left of it. -/
theorem execAll_countdown
    (counts : ∀ c : U32, 1 < c.toNat → exec .tick (s.atTimer c) = .next (s.atTimer (c - 1)))
    {n : Nat} (hn : n < T.toNat) :
    execAll (List.replicate n .tick) (s.atTimer T) = .next (s.atTimer (T - BitVec.ofNat 32 n)) := by
  have step : ∀ j < n, exec .tick (s.atTimer (T - BitVec.ofNat 32 j)) =
      .next (s.atTimer (T - BitVec.ofNat 32 (j + 1))) := by
    intro j hj
    rw [← counter_succ]
    exact counts _ (by rw [counter_toNat (by omega)]; omega)
  have hrun := execAll_ticks (u := fun j => s.atTimer (T - BitVec.ofNat 32 j)) step
  rwa [counter_zero] at hrun

/-- The TICK that finds the counter at 1 is the `timer`-th. -/
theorem execAll_countdown_last
    (counts : ∀ c : U32, 1 < c.toNat → exec .tick (s.atTimer c) = .next (s.atTimer (c - 1)))
    (last : ∀ c : U32, c.toNat ≤ 1 → exec .tick (s.atTimer c) = .next t) (hT : T.toNat ≠ 0) :
    execAll (List.replicate T.toNat .tick) (s.atTimer T) = .next t := by
  obtain ⟨n, hn⟩ := Nat.exists_eq_succ_of_ne_zero hT
  have hlast := last (T - BitVec.ofNat 32 n) (by rw [counter_toNat (by omega)]; omega)
  rw [hn, List.replicate_succ', execAll_append (execAll_countdown counts (n := n) (by omega)), execAll_cons hlast]
  rfl

/-! ## SETTLING -/

theorem exec_tick (s : State) : exec .tick s = execTick s := rfl

theorem exec_tick_settling (h : s.cState = .settling) : exec .tick s = .next (settlingTick s.begin) := by
  simp [exec_tick, execTick, h]

theorem settlingTick_counts (ht : 1 < s.timer.toNat) : settlingTick s = { s with timer := s.timer - 1 } :=
  if_neg (by simp [not_expires_iff.2 ht])

theorem settlingTick_expires (ht : s.timer.toNat ≤ 1) :
    settlingTick s = State.completeOk { s with timer := 0, connected := true, cState := .ready } [] :=
  if_pos (expires_iff.2 ht)

theorem exec_tick_settling_counts (h : s.cState = .settling) (c : U32) (hc : 1 < c.toNat) :
    exec .tick (s.atTimer c) = .next (s.atTimer (c - 1)) := by
  rw [exec_tick_settling (s := s.atTimer c) h, settlingTick_counts (s := (s.atTimer c).begin) hc]
  rfl

theorem exec_tick_settling_expires (h : s.cState = .settling) (c : U32) (hc : c.toNat ≤ 1) :
    exec .tick (s.atTimer c) =
      .next { endedWith s (okRecord []) with timer := 0, connected := true, cState := .ready } := by
  rw [exec_tick_settling (s := s.atTimer c) h, settlingTick_expires (s := (s.atTimer c).begin) hc]
  rfl

/-! ## OPEN_OK -/

/-- The authentication line on TX, where there is one (R186). -/
def lineSent (s : State) : State := if s.cfg.authEn then s.txAppend s.cfg.authLine else s

theorem lineSent_auth (h : s.cfg.authEn = true) : lineSent s = s.txAppend s.cfg.authLine := if_pos h

theorem lineSent_noAuth (h : s.cfg.authEn = false) : lineSent s = s := if_neg (by simp [h])

@[simp] theorem lineSent_cfg (s : State) : (lineSent s).cfg = s.cfg := by
  cases h : s.cfg.authEn with
  | true => rw [lineSent_auth h, State.txAppend_cfg]
  | false => rw [lineSent_noAuth h]

/-- The line changes TX and is put out, and nothing else. -/
theorem lineSent_begin (s : State) : lineSent s.begin =
    { s with net := (lineSent s).net, out := if s.cfg.authEn = true then [.tx s.cfg.authLine] else [] } := by
  cases h : s.cfg.authEn with
  | true => rw [lineSent_auth h, lineSent_auth (s := s.begin) h, if_pos rfl]; rfl
  | false => rw [lineSent_noAuth h, lineSent_noAuth (s := s.begin) h, if_neg nofun]; rfl

theorem opened_settled (h : s.cfg.settleTicks = 0#32) : opened s =
    State.completeOk { lineSent s with timer := 0#32, connected := true, cState := .ready } [] := by
  have hticks : (lineSent s).cfg.settleTicks = 0#32 := by rwa [lineSent_cfg]
  rw [← hticks]
  exact if_pos hticks

theorem opened_settling (h : s.cfg.settleTicks ≠ 0#32) :
    opened s = { lineSent s with timer := s.cfg.settleTicks, cState := .settling } := by
  have hticks : (lineSent s).cfg.settleTicks ≠ 0#32 := by rwa [lineSent_cfg]
  rw [← lineSent_cfg s]
  exact if_neg hticks

/-- What OPEN_OK leaves for the settle wait, `timer` and the output aside. -/
def settlingFrom (s : State) : State := { s with net := (lineSent s).net, cState := .settling }

theorem opened_begin_settling (h : s.cfg.settleTicks ≠ 0#32) : opened s.begin = { settlingFrom s with
    timer := s.cfg.settleTicks, out := if s.cfg.authEn = true then [.tx s.cfg.authLine] else [] } := by
  rw [opened_settling (s := s.begin) h, lineSent_begin]
  rfl

theorem exec_openOk_opening (h : s.cState = .opening) : exec .openOk s = .next (opened s.begin) := by
  have hrun : exec .openOk s = execOpenOk s := rfl
  rw [hrun, execOpenOk, if_pos h]

end

/-- Settles O17: OPEN_OK completes the CONNECT behind the line, if there is one. -/
theorem openOkWithoutSettleCompletes : Obligations.OpenOkWithoutSettleCompletes := by
  intro s hstate hsettle
  rw [exec_openOk_opening hstate, opened_settled (s := s.begin) hsettle]
  refine ⟨fun hauth => ?_, fun hauth => ?_⟩
  · rw [lineSent_auth (s := s.begin) hauth]
    rfl
  · rw [lineSent_noAuth (s := s.begin) hauth]
    rfl

/-- Settles O18: OPEN_OK loads the counter, and the TICKs run it down. -/
theorem settleWaitLastsItsTicks : Obligations.SettleWaitLastsItsTicks := by
  intro s k hstate hsettle hk
  have hrun (n : Nat) : execAll (.openOk :: List.replicate n .tick) s = execAll (List.replicate n .tick) _ :=
    execAll_cons (exec_openOk_opening hstate)
  have hticks (hpos : k ≠ 0) : execAll (.openOk :: List.replicate k .tick) s =
      execAll (List.replicate k .tick) ((settlingFrom s).atTimer s.cfg.settleTicks) := by
    rw [hrun, execAll_ticks_begin hpos, opened_begin_settling hsettle]
    rfl
  have hcounts := exec_tick_settling_counts (s := settlingFrom s) rfl
  refine ⟨(lineSent s).net, fun hauth => ?_, fun hauth => ?_, fun hlt => ?_, fun hlast => ?_⟩
  · rw [lineSent_auth hauth]
    rfl
  · rw [lineSent_noAuth hauth]
  · by_cases hpos : k = 0
    · subst hpos
      rw [hrun, opened_begin_settling hsettle, counter_zero]
      simp [execAll, settlingFrom]
    · rw [hticks hpos, execAll_countdown hcounts hlt, if_neg fun h => hpos h.1]
      rfl
  · have hpos : k ≠ 0 := fun h => hsettle (BitVec.eq_of_toNat_eq (hlast.symm.trans h))
    rw [hticks hpos, hlast,
      execAll_countdown_last hcounts (exec_tick_settling_expires (s := settlingFrom s) rfl) (hlast ▸ hpos)]
    rfl

end Sys2Proof.Machine
end

section
/-! What reads take (R51, R197, R198, R201, R212 to R214): a byte and a TICK in `AWAITING` and in `RAW_READ`, and events
that are not enabled. -/

namespace Sys2Proof.Machine

section
variable {s : State} {g : Framer} {b : Byte}

/-! ## The arrival of a byte -/

theorem exec_rxByte (b : Byte) (s : State) : exec (.rxByte b) s = receiveByte b s.begin := rfl

theorem takeRx_awaiting (h : s.cState = .awaiting) : takeRx b s = awaitingByte b s := by simp [takeRx, h]

theorem takeRx_rawRead (h : s.cState = .rawRead) : takeRx b s = rawByte b s := by simp [takeRx, h]

theorem receiveByte_taken (hwait : readWait s = true) (hpending : s.net.rxPending = []) :
    receiveByte b s = takeRx b s := by simp [receiveByte, hwait, hpending]

theorem receiveByte_behind {h : Byte} {t : List Byte} (hwait : readWait s = true)
    (hpending : s.net.rxPending = h :: t) :
    receiveByte b s = takeRx h { s with net := { s.net with rxPending := t ++ [b] } } := by
  simp [receiveByte, hwait, hpending]

theorem receiveByte_kept (hwait : readWait s = false) :
    receiveByte b s = .next { s with net := { s.net with rxPending := s.net.rxPending ++ [b] } } := by
  simp [receiveByte, hwait]

/-- Settles O33: the head is taken, the new byte stands behind the rest. -/
theorem pendingBytesAreTakenFirst : Obligations.PendingBytesAreTakenFirst := by
  intro s b h t hwait hpending
  exact receiveByte_behind (s := s.begin) (readWait_iff.2 hwait) hpending

/-! ## `AWAITING`: the framer takes the byte -/

theorem awaitingByte_pending (h : framerStep s.cfg s.framer b = some (g, .pending)) :
    awaitingByte b s = .next { s with framer := g } := by
  rw [awaitingByte, h]
  rfl

theorem awaitingByte_accept {p : List Byte} (h : framerStep s.cfg s.framer b = some (g, .accept p)) :
    awaitingByte b s = .next (State.completeOk { s with framer := g, cState := .ready } p) := by
  rw [awaitingByte, h]
  rfl

theorem awaitingByte_reject {c t : Bool} (h : framerStep s.cfg s.framer b = some (g, .reject c t)) :
    awaitingByte b s = .next (awaitFail .frameError c t { s with framer := g }) := by
  rw [awaitingByte, h]
  rfl

/-- A REJECT in a read of SEND_COMMAND is a Teardown (R201). -/
theorem awaitingByte_begin_reject_sendCommand {c t : Bool}
    (h : framerStep s.cfg s.framer b = some (g, .reject c t)) (hop : s.cOp = .sendCommand) :
    awaitingByte b s.begin = .next (closedWith { s with framer := g } (frameErrorRecord c t)) := by
  rw [awaitingByte_reject (s := s.begin) h, ← completionRecord_frameError]
  exact congrArg Host.Outcome.next (State.begin_awaitFail_sendCommand (s := { s with framer := g }) hop _ _ _)

/-- A REJECT in any other read only ends it (R201). -/
theorem awaitingByte_begin_reject_other {c t : Bool} (h : framerStep s.cfg s.framer b = some (g, .reject c t))
    (hop : s.cOp ≠ .sendCommand) : awaitingByte b s.begin = .next
      { endedWith s (frameErrorRecord c t) with framer := idleFramer g, cState := .ready } := by
  rw [awaitingByte_reject (s := s.begin) h, ← completionRecord_frameError]
  exact congrArg Host.Outcome.next (State.begin_awaitFail_other (s := { s with framer := g }) hop _ _ _)

theorem exec_rxByte_awaiting (hstate : s.cState = .awaiting) (hpending : s.net.rxPending = []) :
    exec (.rxByte b) s = awaitingByte b s.begin := by
  rw [exec_rxByte, receiveByte_taken (s := s.begin) (readWait_iff.2 (.inl hstate)) hpending,
    takeRx_awaiting (s := s.begin) hstate]

end

/-- Settles O22: the framer's invariant gives it a step, and the verdict decides how the read goes on. -/
theorem awaitingTakesTheByte : Obligations.AwaitingTakesTheByte := by
  intro s b hstate hpending hframer
  obtain ⟨g, v, hstep, -, -⟩ := FramerInv.step s.cfg hframer b
  refine ⟨g, v, hstep, ?_, fun p hv => ?_, fun c t hv hop => ?_, fun c t hv hop => ?_⟩
  · rintro rfl
    rw [exec_rxByte_awaiting hstate hpending, awaitingByte_pending (s := s.begin) hstep]
    rfl
  · subst hv
    rw [exec_rxByte_awaiting hstate hpending, awaitingByte_accept (s := s.begin) hstep]
    rfl
  · subst hv
    rw [exec_rxByte_awaiting hstate hpending, awaitingByte_begin_reject_sendCommand hstep hop]
  · subst hv
    rw [exec_rxByte_awaiting hstate hpending, awaitingByte_begin_reject_other hstep hop]

/-! ## `AWAITING`: the deadline -/

section
variable {s : State}

theorem exec_tick_awaiting (h : s.cState = .awaiting) : exec .tick s = .next (awaitingTick s.begin) := by
  simp [exec_tick, execTick, h]

theorem awaitingTick_counts (ht : 1 < s.timer.toNat) : awaitingTick s = { s with timer := s.timer - 1 } :=
  if_neg (by simp [not_expires_iff.2 ht])

theorem awaitingTick_expires (ht : s.timer.toNat ≤ 1) :
    awaitingTick s = awaitFail .timeout false false { s with timer := 0 } :=
  if_pos (expires_iff.2 ht)

theorem exec_tick_awaiting_counts (h : s.cState = .awaiting) (c : U32) (hc : 1 < c.toNat) :
    exec .tick (s.atTimer c) = .next (s.atTimer (c - 1)) := by
  rw [exec_tick_awaiting (s := s.atTimer c) h, awaitingTick_counts (s := (s.atTimer c).begin) hc]
  rfl

theorem exec_tick_awaiting_expires_sendCommand (h : s.cState = .awaiting) (hop : s.cOp = .sendCommand) (c : U32)
    (hc : c.toNat ≤ 1) :
    exec .tick (s.atTimer c) = .next (closedWith { s with timer := 0 } (absentRecord .timeout)) := by
  rw [exec_tick_awaiting (s := s.atTimer c) h, awaitingTick_expires (s := (s.atTimer c).begin) hc,
    ← completionRecord_absent]
  exact congrArg Host.Outcome.next (State.begin_awaitFail_sendCommand (s := { s with timer := 0 }) hop _ _ _)

theorem exec_tick_awaiting_expires_other (h : s.cState = .awaiting) (hop : s.cOp ≠ .sendCommand) (c : U32)
    (hc : c.toNat ≤ 1) : exec .tick (s.atTimer c) = .next { endedWith s (absentRecord .timeout) with
      timer := 0, framer := idleFramer s.framer, cState := .ready } := by
  rw [exec_tick_awaiting (s := s.atTimer c) h, awaitingTick_expires (s := (s.atTimer c).begin) hc,
    ← completionRecord_absent]
  exact congrArg Host.Outcome.next (State.begin_awaitFail_other (s := { s with timer := 0 }) hop _ _ _)

end

/-- Settles O23: the deadline counts down, and its last TICK is `AwaitFail(TIMEOUT)`. -/
theorem deadlineExpiresAtItsTick : Obligations.DeadlineExpiresAtItsTick := by
  intro s k hstate hk
  have hpos : k ≠ 0 := by omega
  have hbegin : execAll (List.replicate k .tick) s = execAll (List.replicate k .tick) (s.atTimer s.timer) :=
    execAll_ticks_begin hpos s
  have hcounts := exec_tick_awaiting_counts hstate
  refine ⟨fun hlt => ?_, fun hlast hop => ?_, fun hlast hop => ?_⟩
  · rw [hbegin, execAll_countdown hcounts hlt]
    rfl
  · rw [hbegin, hlast, execAll_countdown_last hcounts (exec_tick_awaiting_expires_sendCommand hstate hop)
      (hlast ▸ hpos)]
    rfl
  · rw [hbegin, hlast, execAll_countdown_last hcounts (exec_tick_awaiting_expires_other hstate hop) (hlast ▸ hpos)]
    rfl

/-! ## `RAW_READ`: a byte -/

section
variable {s : State} {b : Byte}

theorem drainDone_eq (h : s.dLen ≤ s.cfg.drainMax) :
    drainDone s = .next (State.completeOk { s with cState := .ready } (memBytes s.dbuf s.dLen)) := by
  have hbytes : bufBytes (bufferSize s.cfg .dbuf) s.dbuf s.dLen = some (memBytes s.dbuf s.dLen) :=
    bufBytes_eq_some.2 ⟨h, rfl⟩
  rw [drainDone, hbytes, orBounds_some]

theorem rawByte_inside (h : s.dLen < s.cfg.drainMax) : rawByte b s =
    if s.dLen + 1 = s.cfg.drainMax
    then drainDone { s with dbuf := memWrite s.dbuf s.dLen b, dLen := s.dLen + 1, timer2 := s.perRead }
    else .next { s with dbuf := memWrite s.dbuf s.dLen b, dLen := s.dLen + 1, timer2 := s.perRead } := by
  have hwrite : bufWrite (bufferSize s.cfg .dbuf) s.dbuf s.dLen b = some (memWrite s.dbuf s.dLen b) :=
    bufWrite_eq_some.2 ⟨h, rfl⟩
  rw [rawByte, hwrite, orBounds_some]

theorem rawByte_more (h : s.dLen + 1 < s.cfg.drainMax) : rawByte b s =
    .next { s with dbuf := memWrite s.dbuf s.dLen b, dLen := s.dLen + 1, timer2 := s.perRead } := by
  rw [rawByte_inside (by omega), if_neg (by omega)]

theorem rawByte_last (hwf : s.dbuf.wf = true) (h : s.dLen + 1 = s.cfg.drainMax) : rawByte b s =
    .next (State.completeOk { s with
      dbuf := memWrite s.dbuf s.dLen b, dLen := s.dLen + 1, timer2 := s.perRead, cState := .ready }
      (memBytes s.dbuf s.dLen ++ [b])) := by
  rw [rawByte_inside (by omega), if_pos h, drainDone_eq (Nat.le_of_eq h), memBytes_memWrite_succ hwf]

theorem exec_rxByte_rawRead (hstate : s.cState = .rawRead) (hpending : s.net.rxPending = []) :
    exec (.rxByte b) s = rawByte b s.begin := by
  rw [exec_rxByte, receiveByte_taken (s := s.begin) (readWait_iff.2 (.inr hstate)) hpending,
    takeRx_rawRead (s := s.begin) hstate]

end

/-- Settles O28: `DBUF` with the byte written at `d_len`; whether that fills it decides how the drain goes on. -/
theorem rawReadStoresTheByte : Obligations.RawReadStoresTheByte := by
  intro s b hstate hpending hwf _
  refine ⟨memWrite s.dbuf s.dLen b, storedAt_memWrite hwf _ b, fun hmore => ?_, fun hlast => ?_⟩
  · rw [exec_rxByte_rawRead hstate hpending, rawByte_more (s := s.begin) hmore]
    rfl
  · rw [exec_rxByte_rawRead hstate hpending, rawByte_last (s := s.begin) hwf hlast]
    rfl

/-! ## `RAW_READ`: the window and the per-read timeout -/

section
variable {s : State}

theorem exec_tick_rawRead (h : s.cState = .rawRead) : exec .tick s = rawTick s.begin := by
  simp [exec_tick, execTick, h]

theorem rawTick_windowOver (ht : s.timer.toNat ≤ 1) : rawTick s = drainDone { s with timer := 0 } :=
  if_pos (expires_iff.2 ht)

theorem rawTick_windowOpen (ht : 1 < s.timer.toNat) : rawTick s =
    if expires s.timer2 then
      if 0 < s.dLen then .next { s with timer := s.timer - 1, timer2 := s.perRead }
      else .next (State.completeOk { s with timer := s.timer - 1, timer2 := 0, cState := .ready } [])
    else .next { s with timer := s.timer - 1, timer2 := s.timer2 - 1 } :=
  if_neg (by simp [not_expires_iff.2 ht])

theorem rawTick_restarts (ht : 1 < s.timer.toNat) (ht2 : s.timer2.toNat ≤ 1) (hbytes : 0 < s.dLen) :
    rawTick s = .next { s with timer := s.timer - 1, timer2 := s.perRead } := by
  rw [rawTick_windowOpen ht, if_pos (expires_iff.2 ht2), if_pos hbytes]

theorem rawTick_silent (ht : 1 < s.timer.toNat) (ht2 : s.timer2.toNat ≤ 1) (hnone : s.dLen = 0) :
    rawTick s = .next (State.completeOk { s with timer := s.timer - 1, timer2 := 0, cState := .ready } []) := by
  rw [rawTick_windowOpen ht, if_pos (expires_iff.2 ht2), if_neg (by omega)]

theorem rawTick_counts (ht : 1 < s.timer.toNat) (ht2 : 1 < s.timer2.toNat) :
    rawTick s = .next { s with timer := s.timer - 1, timer2 := s.timer2 - 1 } := by
  rw [rawTick_windowOpen ht, if_neg (by simp [not_expires_iff.2 ht2])]

theorem exec_tick_rawRead_windowOver (h : s.cState = .rawRead) (hlen : s.dLen ≤ s.cfg.drainMax)
    (ht : s.timer.toNat ≤ 1) : exec .tick s = .next
      { endedWith s (okRecord (memBytes s.dbuf s.dLen)) with timer := 0, cState := .ready } := by
  rw [exec_tick_rawRead h, rawTick_windowOver (s := s.begin) ht]
  exact drainDone_eq hlen

theorem exec_tick_rawRead_silent (h : s.cState = .rawRead) (ht : 1 < s.timer.toNat) (ht2 : s.timer2.toNat ≤ 1)
    (hnone : s.dLen = 0) : exec .tick s = .next
      { endedWith s (okRecord []) with timer := s.timer - 1, timer2 := 0, cState := .ready } := by
  rw [exec_tick_rawRead h, rawTick_silent (s := s.begin) ht ht2 hnone]
  rfl

theorem exec_tick_rawRead_counts (h : s.cState = .rawRead) (ht : 1 < s.timer.toNat) (ht2 : 1 < s.timer2.toNat) :
    exec .tick s = .next { s with timer := s.timer - 1, timer2 := s.timer2 - 1, out := [] } := by
  rw [exec_tick_rawRead h, rawTick_counts (s := s.begin) ht ht2]
  rfl

end

/-- Settles O29: by the branches of `rawTick`. -/
theorem rawReadTick : Obligations.RawReadTick := by
  intro s hstate hlen
  refine ⟨fun ht => exec_tick_rawRead_windowOver hstate hlen ht, fun ht ht2 hbytes => ?_,
    fun ht ht2 hnone => exec_tick_rawRead_silent hstate ht ht2 hnone,
    fun ht ht2 => exec_tick_rawRead_counts hstate ht ht2⟩
  rw [exec_tick_rawRead hstate, rawTick_restarts (s := s.begin) ht ht2 hbytes]
  rfl

/-- A drain that has seen no byte, `j` TICKs after it started. -/
def silentDrain (s : State) (window perRead : U32) (j : Nat) : State := { s with
  dLen := 0, perRead := perRead, timer := window - BitVec.ofNat 32 j, timer2 := perRead - BitVec.ofNat 32 j
  cOp := .rawDrain, cState := .rawRead, out := [] }

section
variable {s : State} {window perRead : U32}

theorem exec_tick_silentDrain_counts {j : Nat} (hwindow : j + 1 < window.toNat) (hperRead : j + 1 < perRead.toNat) :
    exec .tick (silentDrain s window perRead j) = .next (silentDrain s window perRead (j + 1)) := by
  have ht : 1 < (window - BitVec.ofNat 32 j).toNat := by rw [counter_toNat (by omega)]; omega
  have ht2 : 1 < (perRead - BitVec.ofNat 32 j).toNat := by rw [counter_toNat (by omega)]; omega
  rw [exec_tick_rawRead_counts (s := silentDrain s window perRead j) rfl ht ht2, silentDrain, silentDrain,
    counter_succ, counter_succ]

/-- The TICK at which either counter is at its last ends a drain without bytes. -/
theorem exec_tick_silentDrain_last {j : Nat} (hwindow : j + 1 ≤ window.toNat)
    (hlast : j + 1 = window.toNat ∨ (perRead - BitVec.ofNat 32 j).toNat ≤ 1) :
    ∃ timer timer2, exec .tick (silentDrain s window perRead j) = .next { endedWith s (okRecord []) with
      dLen := 0, perRead := perRead, timer := timer, timer2 := timer2, cState := .ready } := by
  have ht : (window - BitVec.ofNat 32 j).toNat = window.toNat - j := counter_toNat (by omega)
  by_cases hover : j + 1 = window.toNat
  · refine ⟨_, _, exec_tick_rawRead_windowOver (s := silentDrain s window perRead j) rfl (Nat.zero_le _) ?_⟩
    exact ht.trans_le (by omega)
  · refine ⟨_, _, exec_tick_rawRead_silent (s := silentDrain s window perRead j) rfl ?_ ?_ rfl⟩
    · exact lt_of_lt_of_eq (by omega) ht.symm
    · exact hlast.resolve_left hover

end

/-- Settles O30: both counters run together from the start of the drain, and the first to expire ends it. -/
theorem silentDrainEnds : Obligations.SilentDrainEnds := by
  intro s window perRead k hstate hconnected hwindow hk
  have hpos := toNat_pos hwindow
  have hstart : execAll (.rawDrain window perRead :: List.replicate k .tick) s =
      execAll (List.replicate k .tick) (silentDrain s window perRead 0) := by
    rw [execAll_cons (exec_rawDrain_collecting (hostReady_iff.2 (.inr hstate)) hconnected hwindow), silentDrain,
      counter_zero, counter_zero]
  have hcounts (n : Nat) (hn : n < min window.toNat (max perRead.toNat 1)) (j : Nat) (hj : j < n) :
      exec .tick (silentDrain s window perRead j) = .next (silentDrain s window perRead (j + 1)) :=
    exec_tick_silentDrain_counts (by omega) (by omega)
  rw [hstart]
  by_cases hlt : k < min window.toNat (max perRead.toNat 1)
  · exact ⟨_, execAll_ticks (hcounts k hlt), fun _ => ⟨rfl, rfl, rfl⟩, fun hend => absurd hend (by omega)⟩
  · obtain ⟨n, rfl⟩ : ∃ n, k = n + 1 := Nat.exists_eq_succ_of_ne_zero (by omega)
    have hperRead : n + 1 = window.toNat ∨ (perRead - BitVec.ofNat 32 n).toNat ≤ 1 := by
      by_cases hover : n + 1 = window.toNat
      · exact .inl hover
      · rw [counter_toNat (by omega)]
        omega
    obtain ⟨timer, timer2, hlast⟩ := exec_tick_silentDrain_last (s := s) (j := n) (by omega) hperRead
    refine ⟨_, execAll_ticks_last (hcounts n (by omega)) hlast, fun hend => absurd hend hlt, fun _ => ?_⟩
    exact ⟨rfl, hconnected, rfl, rfl, rfl, rfl, rfl⟩

end Sys2Proof.Machine
end

section
/-! What happens by itself and what does not (U5, R40, R53, R238): events that are not enabled, and the transport's
turn. -/

namespace Sys2Proof.Machine

section
variable {s : State}

/-! ## Events that are not enabled -/

theorem readWait_eq_false (h₁ : s.cState ≠ .awaiting) (h₂ : s.cState ≠ .rawRead) : readWait s = false :=
  Bool.eq_false_iff.2 fun h => (readWait_iff.1 h).elim h₁ h₂

theorem exec_rxError_latched (h : readWait s = false) :
    exec .rxError s = .next { s with net := { s.net with rxFailed := true }, out := [] } := by
  rw [exec_rxError, execRxError, if_neg (by simp [h])]
  rfl

theorem exec_txError_latched (h : s.cState ≠ .txWait) :
    exec .txError s = .next { s with net := { s.net with txFailed := true }, out := [] } := by
  rw [exec_txError, execTxError, if_neg h]
  rfl

theorem exec_txDrained_disabled (h : s.cState ≠ .txWait) : exec .txDrained s = .next s.begin := by
  rw [exec_txDrained, execTxDrained, if_neg h]

theorem exec_openOk_disabled (h : s.cState ≠ .opening) : exec .openOk s = .next s.begin := by
  have hrun : exec .openOk s = execOpenOk s := rfl
  rw [hrun, execOpenOk, if_neg h]

theorem exec_openFail_disabled (h : s.cState ≠ .opening) : exec .openFail s = .next s.begin := by
  rw [exec_openFail, execOpenFail, if_neg h]

theorem exec_tick_disabled (h₁ : s.cState ≠ .settling) (h₂ : s.cState ≠ .awaiting) (h₃ : s.cState ≠ .rawRead) :
    exec .tick s = .next s.begin := by
  rw [exec_tick, execTick]
  cases hs : s.cState with
  | settling => exact absurd hs h₁
  | awaiting => exact absurd hs h₂
  | rawRead => exact absurd hs h₃
  | disconnected | opening | ready | txWait => rfl

end

/-- Settles O32: event by event. -/
theorem disabledEventsWaitInTheTransport : Obligations.DisabledEventsWaitInTheTransport := by
  intro s
  refine ⟨fun h₁ h₂ => ⟨fun b => ?_, exec_rxError_latched (readWait_eq_false h₁ h₂)⟩,
    fun h => ⟨exec_txDrained_disabled h, exec_txError_latched h⟩,
    fun h => ⟨exec_openOk_disabled h, exec_openFail_disabled h⟩, exec_tick_disabled⟩
  exact receiveByte_kept (s := s.begin) (readWait_eq_false h₁ h₂)

/-! ## The transport's turn -/

section
variable {s : State}

theorem transportTurn_readWait (h : readWait s = true) : transportTurn s = readWaitIdle s.begin := by
  obtain hs | hs := readWait_iff.1 h <;> simp [transportTurn, hs]

theorem transportTurn_txWait (h : s.cState = .txWait) : transportTurn s = .next (txWaitIdle s.begin) := by
  simp [transportTurn, h]

theorem transportTurn_quiet (h₁ : s.cState ≠ .awaiting) (h₂ : s.cState ≠ .rawRead) (h₃ : s.cState ≠ .txWait) :
    transportTurn s = .next s.begin := by
  rw [transportTurn]
  cases hs : s.cState with
  | awaiting => exact absurd hs h₁
  | rawRead => exact absurd hs h₂
  | txWait => exact absurd hs h₃
  | disconnected | opening | settling | ready => rfl

theorem raiseByte_none (h : s.net.rxPending = []) : raiseByte s = .next s := by simp [raiseByte, h]

theorem raiseByte_head {b : Byte} {t : List Byte} (h : s.net.rxPending = b :: t) :
    raiseByte s = takeRx b { s with net := { s.net with rxPending := t } } := by simp [raiseByte, h]

theorem readWaitIdle_noFailure (hrx : s.net.rxFailed = false) (htx : s.net.txFailed = false) :
    readWaitIdle s = raiseByte s := by simp [readWaitIdle, hrx, htx]

/-- Where a failure is latched the environment has the choice, and the turn draws a free value for it (U8). -/
theorem readWaitIdle_failure (h : s.net.rxFailed = true ∨ s.net.txFailed = true) :
    readWaitIdle s = .next (State.teardown { s with freeCount := s.freeCount + 1 } .transportError false false) ∨
    readWaitIdle s = raiseByte { s with freeCount := s.freeCount + 1 } := by
  have hlatched : (s.net.rxFailed || s.net.txFailed) = true := by simpa using h
  rw [readWaitIdle, if_pos hlatched]
  split
  · exact .inl rfl
  · exact .inr rfl

/-- With no byte pending a read failure has nothing to wait for. -/
theorem readWaitIdle_readFailure (hrx : s.net.rxFailed = true) (hpending : s.net.rxPending = []) :
    readWaitIdle s = .next (State.teardown { s with freeCount := s.freeCount + 1 } .transportError false false) := by
  simp [readWaitIdle, readFailureDue, hrx, hpending]

theorem txWaitIdle_failed (h : s.net.txFailed = true) : txWaitIdle s = s.teardown .transportError false false :=
  if_pos h

theorem txWaitIdle_drained (hfail : s.net.txFailed = false) (hempty : s.net.undrained = []) :
    txWaitIdle s = drained s := by
  simp [txWaitIdle, hfail, hempty]

theorem txWaitIdle_waits (hfail : s.net.txFailed = false) (hrest : s.net.undrained ≠ []) : txWaitIdle s = s := by
  simp [txWaitIdle, hfail, hrest]

end

section
variable {s : State} (hturn : step s = transportTurn s)
include hturn

theorem step_turn_failure (hwait : readWait s = true) (h : s.net.rxFailed = true ∨ s.net.txFailed = true) :
    step s = .next (closedWith { s with freeCount := s.freeCount + 1 } (absentRecord .transportError)) ∨
    step s = raiseByte { s with freeCount := s.freeCount + 1, out := [] } := by
  rw [hturn, transportTurn_readWait hwait, ← State.begin_teardown]
  exact readWaitIdle_failure h

theorem step_turn_readFailure (hwait : readWait s = true) (hrx : s.net.rxFailed = true)
    (hpending : s.net.rxPending = []) :
    step s = .next (closedWith { s with freeCount := s.freeCount + 1 } (absentRecord .transportError)) := by
  rw [hturn, transportTurn_readWait hwait, ← State.begin_teardown]
  exact readWaitIdle_readFailure hrx hpending

theorem step_turn_noFailure (hwait : readWait s = true) (hrx : s.net.rxFailed = false)
    (htx : s.net.txFailed = false) : step s = raiseByte s.begin := by
  rw [hturn, transportTurn_readWait hwait, readWaitIdle_noFailure (s := s.begin) hrx htx]

end

/-- A single pending byte raised is that byte arriving with none pending (R51). -/
theorem raiseByte_eq_exec_rxByte {s : State} {b : Byte} (hwait : readWait s = true) (hpending : s.net.rxPending = [b]) :
    raiseByte s.begin = exec (.rxByte b) { s with net := { s.net with rxPending := [] } } := by
  rw [raiseByte_head (s := s.begin) hpending, exec_rxByte]
  exact (receiveByte_taken (s := { s with net := { s.net with rxPending := [] }, out := [] }) hwait rfl).symm

/-- Settles O58: the turn, state by state and by what is latched. -/
theorem transportRaisesWhatItKept : Obligations.TransportRaisesWhatItKept := by
  intro s hinputs hheld
  have hturn : step s = transportTurn s := step_idle hheld hinputs
  refine ⟨fun hstate => ?readWait, fun hstate => ?txWait, fun h₁ h₂ h₃ => ?quiet⟩
  case readWait =>
    have hwait : readWait s = true := readWait_iff.2 hstate
    refine ⟨fun hrx htx => ⟨fun hp => ?_, fun b hp => ?_, fun b t hp => ?_⟩,
      step_turn_readFailure hturn hwait, fun hrx htx hp => ?_, fun hfail b t hp => ?_⟩
    · rw [step_turn_noFailure hturn hwait hrx htx, raiseByte_none (s := s.begin) hp]
      rfl
    · rw [step_turn_noFailure hturn hwait hrx htx, raiseByte_eq_exec_rxByte hwait hp]
    · rw [step_turn_noFailure hturn hwait hrx htx, raiseByte_head (s := s.begin) hp]
      rfl
    · refine (step_turn_failure hturn hwait (.inr htx)).imp_right fun h => h.trans ?_
      exact raiseByte_none hp
    · refine (step_turn_failure hturn hwait hfail).imp_right fun h => h.trans ?_
      exact raiseByte_head hp
  case txWait =>
    rw [hturn, transportTurn_txWait hstate]
    refine ⟨fun hfail => ?_, fun hfail hempty => ?_, fun hfail hrest => ?_⟩
    · rw [txWaitIdle_failed (s := s.begin) hfail, State.begin_teardown]
    · rw [txWaitIdle_drained (s := s.begin) hfail hempty, exec_txDrained_txWait hstate]
    · rw [txWaitIdle_waits (s := s.begin) hfail hrest]
      rfl
  case quiet =>
    rw [hturn, transportTurn_quiet h₁ h₂ h₃]
    rfl

end Sys2Proof.Machine
end

section
/-! RESET, the reset state and the registers read as fields (R23 to R31, R270, R271). -/

namespace Sys2Proof.Machine

/-- STATUS reads 0 with the framer idle and no connection (R28). -/
theorem status_disconnected {s : State} (hframer : s.framer.state = .seekStart) (hstate : s.cState = .disconnected)
    (hconnected : s.connected = false) : status s = 0x00#8 := by
  rw [status, busy, hostReady, hframer, hstate, hconnected]
  rfl

/-- FRAMEERR reads 0 under a record without flags (R30). -/
theorem frameErr_noFlags {s : State} (hcrc : s.record.feCrc = false) (hstop : s.record.feStop = false) :
    frameErr s = 0#2 := by
  rw [frameErr, hcrc, hstop]
  rfl

theorem exec_reset (s : State) : exec .reset s = execReset s := rfl

/-- Settles O42: the fields RESET writes, read off its meaning. -/
theorem resetEventClears : Obligations.ResetEventClears := by
  refine ⟨rfl, fun s => ⟨_, exec_reset s, rfl, rfl, rfl, rfl, ⟨rfl, rfl, rfl⟩, rfl,
    status_disconnected rfl rfl rfl, frameErr_noFlags rfl rfl, rfl, rfl, rfl, rfl, rfl,
    fun h => if_neg h, fun h => if_pos h⟩⟩

/-- The free parameters stand above their least values and the line is cut to its bound (R8). -/
theorem params_wf : Config.params.wf := by
  refine ⟨?_, ?_, ?_⟩
  · simp [Config.params]
  · simp [Config.params]
  · simp [Config.params]

/-- Settles O43: every field by evaluation but the configuration, which is not a value. -/
theorem resetStateValues : Obligations.ResetStateValues :=
  ⟨rfl, rfl, rfl, ⟨rfl, rfl, rfl⟩, rfl, status_disconnected rfl rfl rfl, frameErr_noFlags rfl rfl, rfl, rfl, rfl,
    params_wf⟩

/-- Settles O53: the framer and the record are at reset, nothing is stored and nothing held. -/
theorem resetMeetsTheInvariant : Obligations.ResetMeetsTheInvariant := by
  refine ⟨params_wf, fun _ => ⟨rfl, rfl, rfl⟩, ?_, ⟨rfl, rfl, ?_, ?_⟩, ?_, ⟨rfl, rfl, rfl, rfl⟩, rfl⟩
  · exact FramerIdle.inv ⟨rfl, rfl, rfl⟩ rfl rfl
  · simp [State.reset]
  · simp [State.reset]
  · show RecordInv Record.reset
    decide

/-! ## STATUS -/

/-- The layout of STATUS: two codes of three bits above two flags (R28). -/
theorem status_layout (f c : BitVec 3) (b d : Bool) :
    (f ++ c ++ BitVec.ofBool b ++ BitVec.ofBool d).getLsbD 0 = d ∧
    (f ++ c ++ BitVec.ofBool b ++ BitVec.ofBool d).getLsbD 1 = b ∧
    (f ++ c ++ BitVec.ofBool b ++ BitVec.ofBool d).extractLsb' 2 3 = c ∧
    (f ++ c ++ BitVec.ofBool b ++ BitVec.ofBool d).extractLsb' 5 3 = f := by
  decide +revert

/-- The layout of FRAMEERR (R30). -/
theorem frameErr_layout (c t : Bool) :
    (BitVec.ofBool t ++ BitVec.ofBool c).getLsbD 0 = c ∧ (BitVec.ofBool t ++ BitVec.ofBool c).getLsbD 1 = t := by
  decide +revert

theorem busy_iff {s : State} : busy s = true ↔ s.cState ≠ .disconnected ∧ s.cState ≠ .ready := by
  simp [busy, hostReady]

/-- Settles O44: the fields of STATUS and FRAMEERR by their layout, the numbers by the codes. -/
theorem statusRegisterFields : Obligations.StatusRegisterFields := by
  intro s
  obtain ⟨hconnected, hbusy, hcState, hfState⟩ :=
    status_layout s.framer.state.code s.cState.code (busy s) s.connected
  obtain ⟨hcrc, hstop⟩ := frameErr_layout s.record.feCrc s.record.feStop
  refine ⟨hconnected, ?_, hcState.trans ?_, hfState.trans ?_, rfl, rfl, rfl, hcrc, hstop⟩
  · rw [← busy_iff, ← hbusy, status]
  · rfl
  · rfl

end Sys2Proof.Machine
end

section
/-! The algebra of Crc16 (R116): linearity, the residue, and the single-bit errors. -/

namespace Sys2Proof.Machine

theorem crcByte_xor (c d : U16) (a b : Byte) : crcByte (c ^^^ d) (a ^^^ b) = crcByte c a ^^^ crcByte d b := by
  have hfield : (c ^^^ d) ^^^ (a ^^^ b).setWidth 16 <<< 8 =
      (c ^^^ a.setWidth 16 <<< 8) ^^^ (d ^^^ b.setWidth 16 <<< 8) := by
    rw [BitVec.setWidth_xor, BitVec.shiftLeft_xor_distrib]
    ac_rfl
  rw [crcByte, hfield, crcShifts_xor, crcByte, crcByte]

theorem crcBytes_xor {s t : List Byte} (h : s.length = t.length) (c d : U16) :
    crcBytes (c ^^^ d) (List.zipWith (· ^^^ ·) s t) = crcBytes c s ^^^ crcBytes d t := by
  induction s generalizing t c d with
  | nil =>
    obtain rfl : t = [] := List.length_eq_zero_iff.1 h.symm
    rfl
  | cons a s ih =>
    cases t with
    | nil => cases h
    | cons b t =>
      rw [List.zipWith_cons_cons, crcBytes_cons, crcBytes_cons, crcBytes_cons, crcByte_xor, ih (Nat.succ.inj h)]

/-- Its own high byte takes nothing from the register but the shift. -/
theorem crcByte_highByte (c : U16) : crcByte c ((c >>> 8).setWidth 8) = c <<< 8 := by
  rw [crcByte_table, BitVec.xor_self, crcByte_zero_zero, BitVec.xor_zero]

/-- A register that takes in its own two bytes is left at 0. -/
theorem crcBytes_crcField (c : U16) : crcBytes c (crcField c) = 0#16 := by
  have hhigh : c.extractLsb' 8 8 = (c >>> 8).setWidth 8 := by
    refine BitVec.eq_of_toNat_eq ?_
    simp
  have hlow : c.extractLsb' 0 8 = (c <<< 8 >>> 8).setWidth 8 := by
    refine BitVec.eq_of_toNat_eq ?_
    simp only [BitVec.extractLsb'_toNat, BitVec.toNat_setWidth, BitVec.toNat_ushiftRight, BitVec.toNat_shiftLeft,
      Nat.shiftLeft_eq, Nat.shiftRight_eq_div_pow]
    omega
  have hout : c <<< 8 <<< 8 = 0#16 := by
    rw [← BitVec.shiftLeft_add]
    exact BitVec.shiftLeft_eq_zero (Nat.le_refl 16)
  rw [crcField, crcBytes_cons, hhigh, crcByte_highByte, crcBytes_cons, hlow, crcByte_highByte, hout]
  rfl

/-- Settles O4: the register from 0 on, where a zero byte changes nothing, by linearity and by the residue. -/
theorem crcAlgebra : Obligations.CrcAlgebra := by
  refine ⟨rfl, fun s => ?_, fun s t h => ?_, fun s => ?_⟩
  · rw [crc16_eq, crc16_eq, crcBytes_cons, crcInitial, crcByte_zero_zero]
  · rw [crc16_eq, crc16_eq, crc16_eq, ← crcBytes_xor h]
    rfl
  · rw [crc16_eq, crcBytes_append, ← crc16_eq]
    exact crcBytes_crcField (crc16 s)

/-- Settles O5: the byte with the flipped bit is another byte. -/
theorem crcDetectsEverySingleBit : Obligations.CrcDetectsEverySingleBit :=
  fun _ _ _ hk hi => crc16_flipBit_ne_crc16 hk hi

end Sys2Proof.Machine
end

section
/-! The invariant of the block (R44) under the changes a step makes of a state that meets it: one lemma for each way
in which the correlator's registers, the buffers or the held operations change. -/

namespace Sys2Proof.Machine

/-! ## Records -/

theorem recordInv_ok (data : List Byte) : RecordInv (okRecord data) := by simp [RecordInv, okRecord]

theorem recordInv_absent (ca : Cause) (h : ca ≠ .none ∧ ca ≠ .frameError := by decide) :
    RecordInv (absentRecord ca) := by
  simp [RecordInv, absentRecord, h]

theorem recordInv_frameError {c t : Bool} (h : c = true ∨ t = true) : RecordInv (frameErrorRecord c t) := by
  simp [RecordInv, frameErrorRecord, h]

theorem recordInv_decoded {d : Decoded} {n : Nat} (h : DecodeEnds d n) : RecordInv (decodedRecord d) := by
  obtain ⟨hst, hca, hc, ht, -⟩ | ⟨hst, hca, hflag, hdata, -⟩ | ⟨hst, hca, hc, ht, hdata, -⟩ := h
  · simp [RecordInv, decodedRecord, hst, hca, hc, ht]
  · simp [RecordInv, decodedRecord, hst, hca, hflag, hdata]
  · simp [RecordInv, decodedRecord, hst, hca, hc, ht, hdata]

/-! ## The parts of the invariant -/

section
variable {s : State}

theorem BlockInv.cfg (h : BlockInv s) : s.cfg.wf := by
  obtain ⟨hcfg, -⟩ := h
  exact hcfg

theorem BlockInv.framer (h : BlockInv s) : FramerInv s.framer := by
  obtain ⟨-, -, hframer, -⟩ := h
  exact hframer

theorem BlockInv.idle (h : BlockInv s) (hstate : s.cState ≠ .awaiting) : FramerIdle s.framer := by
  obtain ⟨-, hidle, -⟩ := h
  exact hidle hstate

theorem BlockInv.correlator (h : BlockInv s) : CorrelatorInv s := by
  obtain ⟨-, -, -, hcorrelator, -⟩ := h
  exact hcorrelator

theorem BlockInv.record (h : BlockInv s) : RecordInv s.record := by
  obtain ⟨-, -, -, -, hrecord, -⟩ := h
  exact hrecord

theorem BlockInv.buffers (h : BlockInv s) : BufferInv s := by
  obtain ⟨-, -, -, -, -, hbuffers, -⟩ := h
  exact hbuffers

theorem BlockInv.held (h : BlockInv s) : s.held.all (Instr.wf s.cfg.drainMax) = true := by
  obtain ⟨-, -, -, -, -, -, hheld⟩ := h
  exact hheld

theorem BlockInv.txbuf_wf (h : BlockInv s) : s.txbuf.wf = true := h.buffers.1

theorem BlockInv.connected_eq (h : BlockInv s) : s.connected = isConnectedState s.cState := h.correlator.1

theorem BlockInv.op_fits (h : BlockInv s) : opFits s.cState s.cOp = true := by
  obtain ⟨-, hop, -⟩ := h.correlator
  exact hop

theorem BlockInv.timer_ne (h : BlockInv s)
    (hstate : s.cState = .settling ∨ s.cState = .awaiting ∨ s.cState = .rawRead) :
    s.timer ≠ 0#32 := by
  obtain ⟨-, -, htimer, -⟩ := h.correlator
  exact htimer hstate

theorem BlockInv.room (h : BlockInv s) (hstate : s.cState = .rawRead) : s.dLen < s.cfg.drainMax := by
  obtain ⟨-, -, -, hroom⟩ := h.correlator
  exact hroom hstate

theorem BlockInv.connected_ready (h : BlockInv s) (hstate : s.cState = .ready) : s.connected = true := by
  rw [h.connected_eq, hstate]
  rfl

/-- In `TX_WAIT` a request or a FLUSH waits (R25, R221). -/
theorem BlockInv.op_txWait (h : BlockInv s) (hstate : s.cState = .txWait) : s.cOp = .sendCommand ∨ s.cOp = .flush := by
  have hop := h.op_fits
  rw [hstate] at hop
  cases hs : s.cOp with
  | sendCommand => exact .inl rfl
  | flush => exact .inr rfl
  | none | connect | readOne | rawDrain => rw [hs] at hop; cases hop

/-! ## Changes that keep it -/

/-- The framer, the registers of the correlator and the record change together. -/
theorem BlockInv.change (h : BlockInv s) {f : Framer} {c : CState} {o : COp} {connected : Bool} {timer : U32}
    {dLen : Nat} {r : Record} (hidle : c ≠ .awaiting → FramerIdle f) (hframer : FramerInv f)
    (hconnected : connected = isConnectedState c) (hop : opFits c o = true)
    (htimer : c = .settling ∨ c = .awaiting ∨ c = .rawRead → timer ≠ 0#32)
    (hroom : c = .rawRead → dLen < s.cfg.drainMax) (hrecord : RecordInv r) :
    BlockInv { s with framer := f, cState := c, cOp := o, connected := connected, timer := timer, dLen := dLen
                      record := r } := by
  obtain ⟨hcfg, -, -, -, -, hbuffers, hheld⟩ := h
  exact ⟨hcfg, hidle, hframer, ⟨hconnected, hop, htimer, hroom⟩, hrecord, hbuffers, hheld⟩

theorem BlockInv.with_txbuf (h : BlockInv s) {p : List Byte} {m : Memory} (hm : Loaded s.txbuf m p) :
    BlockInv { s with txbuf := m } := by
  obtain ⟨hcfg, hidle, hframer, hcorrelator, hrecord, ⟨-, hwithin, hdbuf⟩, hheld⟩ := h
  exact ⟨hcfg, hidle, hframer, hcorrelator, hrecord, ⟨hm.wf, hm.within hwithin, hdbuf⟩, hheld⟩

/-- A byte stored in `DBUF` where there is room for it. -/
theorem BlockInv.with_dbuf (h : BlockInv s) (hroom : s.dLen < s.cfg.drainMax) (b : Byte) :
    BlockInv { s with dbuf := memWrite s.dbuf s.dLen b } := by
  obtain ⟨hcfg, hidle, hframer, hcorrelator, hrecord, ⟨htxbuf, htxbuf', hwf, hwithin⟩, hheld⟩ := h
  exact ⟨hcfg, hidle, hframer, hcorrelator, hrecord,
    ⟨htxbuf, htxbuf', memWrite_wf hwf _ b, memWrite_within hwithin hroom b⟩, hheld⟩

theorem BlockInv.with_held (h : BlockInv s) {is : List Instr} (his : is.all (Instr.wf s.cfg.drainMax) = true) :
    BlockInv { s with held := is } := by
  obtain ⟨hcfg, hidle, hframer, hcorrelator, hrecord, hbuffers, -⟩ := h
  exact ⟨hcfg, hidle, hframer, hcorrelator, hrecord, hbuffers, his⟩

theorem BlockInv.hold (h : BlockInv s) {i : Instr} (hi : i.wf s.cfg.drainMax = true) : BlockInv (s.begin.hold i) := by
  have hall : (s.held ++ [i]).all (Instr.wf s.cfg.drainMax) = true := by
    rw [List.all_append, h.held, List.all_cons, hi]
    rfl
  exact h.with_held hall

/-- The end of an operation in `READY`, wherever its counters stand. -/
theorem BlockInv.ended_ready (h : BlockInv s) {f : Framer} {r : Record} {connected : Bool}
    (hidle : FramerIdle f) (hframer : FramerInv f) (hconnected : connected = true) (hrecord : RecordInv r)
    (timer : U32 := s.timer) (dLen : Nat := s.dLen) :
    BlockInv { s with framer := f, cState := .ready, cOp := .none, connected := connected, timer := timer, dLen := dLen
                      record := r } :=
  h.change (fun _ => hidle) hframer hconnected rfl (by simp) (by simp) hrecord

/-- The end of an operation with the connection, wherever its deadline stands. -/
theorem BlockInv.closed (h : BlockInv s) {r : Record} (hrecord : RecordInv r) (timer : U32 := s.timer) :
    BlockInv (closedWith { s with timer := timer } r) :=
  h.change (c := .disconnected) (timer := timer) (dLen := s.dLen) (fun _ => ⟨rfl, rfl, rfl⟩) h.framer.restart rfl rfl
    (by simp) (by simp) hrecord

/-- The wait for a transport to open. -/
theorem BlockInv.opening (h : BlockInv s) {f : Framer} (hidle : FramerIdle f) (hframer : FramerInv f) :
    BlockInv { s with framer := f, cState := .opening, cOp := .connect, connected := false } :=
  h.change (fun _ => hidle) hframer rfl rfl (by simp) (by simp) h.record

/-- The wait for a write to drain. -/
theorem BlockInv.txWait (h : BlockInv s) (hstate : s.cState = .ready) {o : COp} (hop : opFits .txWait o = true) :
    BlockInv { s with cState := .txWait, cOp := o } :=
  h.change (fun _ => h.idle (by simp [hstate])) h.framer (h.connected_ready hstate) hop (by simp) (by simp) h.record

/-- The wait for a frame, its deadline armed. -/
theorem BlockInv.awaiting (h : BlockInv s) (hconnected : s.connected = true) {f : Framer} {o : COp} {t : U32}
    (hframer : FramerInv f) (hop : opFits .awaiting o = true) (ht : t ≠ 0#32) :
    BlockInv { s with framer := f, cState := .awaiting, cOp := o, timer := t } :=
  h.change (fun hne => absurd rfl hne) hframer hconnected hop (fun _ => ht) (by simp) h.record

/-- The raw drain, its window open and room in `DBUF`. -/
theorem BlockInv.rawRead (h : BlockInv s) (hconnected : s.connected = true) (hidle : FramerIdle s.framer) {t : U32}
    {n : Nat} (ht : t ≠ 0#32) (hroom : n < s.cfg.drainMax) :
    BlockInv { s with cState := .rawRead, cOp := .rawDrain, timer := t, dLen := n } :=
  h.change (fun _ => hidle) h.framer hconnected rfl (fun _ => ht) (fun _ => hroom) h.record

/-- An operation that ends in its own step, in the state it was accepted in. -/
theorem BlockInv.ended (h : BlockInv s) (hready : hostReady s = true) {f : Framer} {r : Record} (hidle : FramerIdle f)
    (hframer : FramerInv f) (hrecord : RecordInv r) : BlockInv { endedWith s r with framer := f } := by
  have hconnected := h.connected_eq
  obtain hs | hs := hostReady_iff.1 hready <;> rw [hs] at hconnected
  · have hend := h.change (c := .disconnected) (o := .none) (timer := s.timer) (dLen := s.dLen) (fun _ => hidle) hframer
      hconnected rfl (by simp) (by simp) hrecord
    rw [← hs] at hend
    exact hend
  · have hend := h.ended_ready hidle hframer hconnected hrecord
    rw [← hs] at hend
    exact hend

end

end Sys2Proof.Machine
end

section
/-! What a step can do from a state that meets the invariant: it has a next state, keeps the invariant, moves `c_state`
by the table of R221, and changes TX by whole frames and lines (R44, R52, R221, R237). -/

namespace Sys2Proof.Machine

/-- TX as before, empty, or longer by the authentication line or by one frame (R52). -/
def TxStep (s t : State) : Prop :=
  t.net.tx = s.net.tx ∨ t.net.tx = [] ∨ t.net.tx = s.net.tx ++ s.cfg.authLine ∨
  ∃ p : List Byte, p.length ≤ 32767 ∧ t.net.tx = s.net.tx ++ frameBytes s.cfg p

/-- From `s` the machine may go on in `t`. -/
structure SafeStep (s t : State) : Prop where
  inv : BlockInv t
  moves : cMove s.cState t.cState = true
  tx : TxStep s t

/-- The outcome is a next state in which the machine may go on. -/
def Safe (s : State) (r : StepResult) : Prop := ∃ t, r = .next t ∧ SafeStep s t

theorem cMove_self (c : CState) : cMove c c = true := by
  cases c with
  | disconnected | opening | settling | ready | txWait | awaiting | rawRead => rfl

section
variable {s : State}

/-- Nothing but registers outside the invariant, the transport but TX, and the output changes. -/
theorem safeStep_kept {t : State} (hinv : BlockInv t) (hstate : t.cState = s.cState) (htx : t.net.tx = s.net.tx) :
    SafeStep s t := ⟨hinv, hstate ▸ cMove_self _, .inl htx⟩

/-! ## Host operations -/

theorem ended_safe (h : BlockInv s) (hready : hostReady s = true) {r : Record} (hrecord : RecordInv r)
    (c : U16) : SafeStep s { endedWith s r with crc := c } := by
  have hstate : s.cState ≠ .awaiting := by
    obtain hs | hs := hostReady_iff.1 hready <;> simp [hs]
  exact safeStep_kept (h.ended hready (h.idle hstate) h.framer hrecord) rfl rfl

theorem closed_safe (h : BlockInv s) {r : Record} (hrecord : RecordInv r)
    (hmove : cMove s.cState .disconnected = true) : SafeStep s (closedWith s r) :=
  ⟨h.closed hrecord, hmove, .inl rfl⟩

/-- The operations of the block itself, and those that open or close the connection, on a ready port. -/
theorem exec_local_safe (h : BlockInv s) (hready : hostReady s = true) {i : Instr} (hi : i.wf s.cfg.drainMax = true)
    (hhost : isHostOperation i = true) (hlocal : needsConnection i = false) : Safe s (exec i s) := by
  have hidle : FramerIdle s.framer := h.idle (by obtain hs | hs := hostReady_iff.1 hready <;> simp [hs])
  cases i with
  | crcInit => exact ⟨_, exec_crcInit_ready hready, ended_safe h hready (recordInv_ok _) _⟩
  | crcByte b => exact ⟨_, exec_crcByte_ready b hready, ended_safe h hready (recordInv_ok _) _⟩
  | crc16 data => exact ⟨_, exec_crc16_ready data hready, ended_safe h hready (recordInv_ok _) _⟩
  | reserved0 | reservedD | reservedE | reservedF =>
    exact ⟨_, refuseSelect_ready _ hready, ended_safe h hready (recordInv_absent .illegalOp) s.crc⟩
  | encode p =>
    obtain ⟨m, hm, hexec⟩ := exec_encode_ready hready h.txbuf_wf (of_decide_eq_true hi)
    exact ⟨_, hexec, safeStep_kept ((h.with_txbuf hm).ended hready hidle h.framer (recordInv_ok _)) rfl rfl⟩
  | decode buf =>
    obtain ⟨f, d, hd, hf, hends⟩ := decodeBuffer_ends s.cfg s.framer buf
    have hinv : FramerInv f := decodeLoop_keepsInv h.framer.restart hd
    exact ⟨_, exec_decode_ready hready hd hends,
      safeStep_kept (h.ended hready hf hinv (recordInv_decoded hends)) rfl rfl⟩
  | connect =>
    obtain hs | hs := hostReady_iff.1 hready
    · exact ⟨_, exec_connect_disconnected hs, h.opening hidle h.framer, by rw [hs]; rfl, .inr (.inl rfl)⟩
    · exact ⟨_, exec_connect_ready hs, h.opening ⟨rfl, rfl, rfl⟩ h.framer.restart, by rw [hs]; rfl, .inr (.inl rfl)⟩
  | disconnect =>
    obtain hs | hs := hostReady_iff.1 hready
    · refine ⟨_, exec_disconnect_disconnected hs, ?_, cMove_self _, .inl rfl⟩
      have hend := h.ended hready hidle h.framer (recordInv_ok [])
      have hconnected : (endedWith s (okRecord [])).connected = false := by
        show s.connected = false
        rw [h.connected_eq, hs]; rfl
      rw [← hconnected]
      exact hend
    · exact ⟨_, exec_disconnect_ready hs, closed_safe h (recordInv_ok _) (by rw [hs]; rfl)⟩
  | sendCommand _ _ _ _ | readOne _ _ | xmit _ | flush | rawDrain _ _ | fwVersion | getValues _ | forwardCan _ _
  | pingCan | getCustomConfig _ | bmsGetValues => cases hlocal
  | reset | rxByte _ | rxError | txDrained | txError | openOk | openFail | tick | frameS _ _ _ | frameL _ _ _
  | lenS _ | lenL _ => cases hhost

theorem request_safe (h : BlockInv s) (hstate : s.cState = .ready) {i : Instr} {p : List Byte} {t : U32}
    (hi : i.wf s.cfg.drainMax = true) (hreq : requestOf s.cfg i = some (p, t)) : Safe s (exec i s) := by
  have hp := requestOf_length_le hreq hi
  obtain ⟨m, hm, hexec⟩ := exec_request_connected (hostReady_iff.2 (.inr hstate)) (h.connected_ready hstate)
    h.txbuf_wf hreq hp
  exact ⟨_, hexec, (h.with_txbuf hm).txWait hstate rfl, by rw [hstate]; rfl, .inr (.inr (.inr ⟨p, hp, rfl⟩))⟩

/-- The operations on the connection, which stands (R183). -/
theorem exec_connected_safe (h : BlockInv s) (hstate : s.cState = .ready) {i : Instr}
    (hi : i.wf s.cfg.drainMax = true) (hneeds : needsConnection i = true) : Safe s (exec i s) := by
  have hready : hostReady s = true := hostReady_iff.2 (.inr hstate)
  have hconnected := h.connected_ready hstate
  have hidle : FramerIdle s.framer := h.idle (by simp [hstate])
  cases i with
  | sendCommand _ _ _ _ | fwVersion | getValues _ | forwardCan _ _ | pingCan | getCustomConfig _ | bmsGetValues =>
    exact request_safe h hstate hi rfl
  | readOne useDefault timeout =>
    by_cases ht : effectiveTimeout s useDefault timeout = 0#32
    · refine ⟨_, exec_readOne_zero hready hconnected ht, ?_, by rw [hstate]; rfl, .inl rfl⟩
      exact h.ended_ready ⟨rfl, rfl, rfl⟩ h.framer.restart hconnected
        (recordInv_absent .timeout) 0#32
    · exact ⟨_, exec_readOne_armed hready hconnected ht, h.awaiting hconnected h.framer rfl ht, by rw [hstate]; rfl,
        .inl rfl⟩
  | xmit p =>
    have hp : p.length ≤ 32767 := of_decide_eq_true hi
    obtain ⟨m, hm, hexec⟩ := exec_xmit_connected hready hconnected h.txbuf_wf hp
    exact ⟨_, hexec, (h.with_txbuf hm).ended hready hidle h.framer (recordInv_ok []), cMove_self _,
      .inr (.inr (.inr ⟨p, hp, rfl⟩))⟩
  | flush =>
    exact ⟨_, exec_flush_connected hready hconnected, h.txWait hstate rfl, by rw [hstate]; rfl, .inl rfl⟩
  | rawDrain window perRead =>
    by_cases hwindow : window = 0#32
    · subst hwindow
      exact ⟨_, exec_rawDrain_zero hready hconnected, h.ended_ready hidle h.framer hconnected (recordInv_ok []) 0#32 0,
        by rw [hstate]; rfl, .inl rfl⟩
    · have hdrain : 1 ≤ s.cfg.drainMax := h.cfg.1
      exact ⟨_, exec_rawDrain_collecting hready hconnected hwindow, h.rawRead hconnected hidle hwindow hdrain,
        by rw [hstate]; rfl, .inl rfl⟩
  | crc16 _ | encode _ | decode _ | connect | disconnect | crcInit | crcByte _ | reserved0 | reservedD | reservedE
  | reservedF | reset | rxByte _ | rxError | txDrained | txError | openOk | openFail | tick | frameS _ _ _
  | frameL _ _ _ | lenS _ | lenL _ => cases hneeds

/-- Host operations: held on a busy port, reported without a connection, else accepted (R181, R183). -/
theorem exec_hostOperation_safe (h : BlockInv s) {i : Instr} (hi : i.wf s.cfg.drainMax = true)
    (hhost : isHostOperation i = true) : Safe s (exec i s) := by
  cases hready : hostReady s with
  | false => exact ⟨_, busyPortHoldsTheOperation s i hhost hready, safeStep_kept (h.hold hi) rfl rfl⟩
  | true =>
    cases hneeds : needsConnection i with
    | false => exact exec_local_safe h hready hi hhost hneeds
    | true =>
      obtain hs | hs := hostReady_iff.1 hready
      · have hconnected : s.connected = false := by rw [h.connected_eq, hs]; rfl
        exact ⟨_, notConnectedIsReported s i hneeds hready hconnected,
          ended_safe h hready (recordInv_absent .notConnected) s.crc⟩
      · exact exec_connected_safe h hs hi hneeds

/-! ## Bytes from the peer -/

/-- From `s` bytes of the peer lead to `t`: the block stays where it is, or a read wait ends. -/
structure Received (s t : State) : Prop where
  inv : BlockInv t
  moves : t.cState = s.cState ∨ readWait s = true ∧ (t.cState = .ready ∨ t.cState = .disconnected)
  tx : t.net.tx = s.net.tx

theorem Received.trans {t u : State} (first : Received s t) (second : Received t u) : Received s u := by
  refine ⟨second.inv, ?_, second.tx.trans first.tx⟩
  obtain hst | ⟨hwait, hst⟩ := first.moves
  · obtain htu | ⟨hwait, htu⟩ := second.moves
    · exact .inl (htu.trans hst)
    · exact .inr ⟨by rw [readWait, ← hst]; exact hwait, htu⟩
  · obtain htu | ⟨hwait', -⟩ := second.moves
    · exact .inr ⟨hwait, by rwa [htu]⟩
    · obtain hs | hs := readWait_iff.1 hwait' <;> simp [hs] at hst

theorem Received.safe {t : State} (h : Received s t) : SafeStep s t := by
  refine ⟨h.inv, ?_, .inl h.tx⟩
  obtain hst | ⟨hwait, hst⟩ := h.moves
  · rw [hst]
    exact cMove_self _
  · obtain hs | hs := readWait_iff.1 hwait <;> obtain ht | ht := hst <;> rw [hs, ht] <;> rfl

/-- The outcome is a state that bytes of the peer can lead to. -/
def Receives (s : State) (r : StepResult) : Prop := ∃ t, r = .next t ∧ Received s t

theorem Receives.safe {r : StepResult} (h : Receives s r) : Safe s r := by
  obtain ⟨t, hr, ht⟩ := h
  exact ⟨t, hr, ht.safe⟩

/-- `AwaitFail` in a read wait, wherever the deadline stands. -/
theorem awaitFail_received (h : BlockInv s) (hstate : s.cState = .awaiting) {ca : Cause} {c t : Bool}
    (hrecord : RecordInv (completionRecord .absent ca c t [])) (timer : U32) :
    Received s (awaitFail ca c t { s with timer := timer }) := by
  have hwait : readWait s = true := readWait_iff.2 (.inl hstate)
  by_cases hop : s.cOp = .sendCommand
  · rw [awaitFail_sendCommand (s := { s with timer := timer }) hop]
    exact ⟨h.closed hrecord timer, .inr ⟨hwait, .inr rfl⟩, rfl⟩
  · rw [awaitFail_other (s := { s with timer := timer }) hop]
    have hconnected : s.connected = true := by rw [h.connected_eq, hstate]; rfl
    exact ⟨h.ended_ready ⟨rfl, rfl, rfl⟩ h.framer.restart hconnected hrecord timer, .inr ⟨hwait, .inl rfl⟩, rfl⟩

theorem awaitingByte_receives (h : BlockInv s) (hstate : s.cState = .awaiting) (b : Byte) :
    Receives s (awaitingByte b s) := by
  have hwait : readWait s = true := readWait_iff.2 (.inl hstate)
  have hconnected : s.connected = true := by rw [h.connected_eq, hstate]; rfl
  obtain ⟨g, v, hstep, hg, hanswer⟩ := FramerInv.step s.cfg h.framer b
  have hinv : BlockInv { s with framer := g } :=
    h.change (fun hne => absurd hstate hne) hg h.connected_eq h.op_fits h.timer_ne h.room h.record
  cases v with
  | pending => exact ⟨_, awaitingByte_pending hstep, hinv, .inl rfl, rfl⟩
  | accept p =>
    exact ⟨_, awaitingByte_accept hstep, h.ended_ready (hanswer.idle nofun) hg hconnected (recordInv_ok p),
      .inr ⟨hwait, .inl rfl⟩, rfl⟩
  | reject c t =>
    refine ⟨_, awaitingByte_reject hstep, ?_⟩
    have hrecord : RecordInv (completionRecord .absent .frameError c t []) := by
      rw [completionRecord_frameError]
      exact recordInv_frameError (hanswer.flag c t rfl)
    obtain ⟨hend, hmoves, htx⟩ := awaitFail_received hinv hstate hrecord s.timer
    exact ⟨hend, hmoves, htx⟩

theorem rawByte_receives (h : BlockInv s) (hstate : s.cState = .rawRead) (b : Byte) : Receives s (rawByte b s) := by
  have hwait : readWait s = true := readWait_iff.2 (.inr hstate)
  have hconnected : s.connected = true := by rw [h.connected_eq, hstate]; rfl
  have hidle : FramerIdle s.framer := h.idle (by simp [hstate])
  have hroom := h.room hstate
  have hstored := h.with_dbuf hroom b
  by_cases hlast : s.dLen + 1 = s.cfg.drainMax
  · obtain ⟨-, -, hwf, -⟩ := h.buffers
    exact ⟨_, rawByte_last hwf hlast,
      hstored.ended_ready hidle h.framer hconnected (recordInv_ok _) s.timer (s.dLen + 1), .inr ⟨hwait, .inl rfl⟩, rfl⟩
  · refine ⟨_, rawByte_more (by omega), ?_, .inl rfl, rfl⟩
    exact hstored.change (dLen := s.dLen + 1) (fun _ => hidle) h.framer h.connected_eq h.op_fits h.timer_ne
      (fun _ => show s.dLen + 1 < s.cfg.drainMax by omega) h.record

theorem takeRx_receives (h : BlockInv s) (b : Byte) : Receives s (takeRx b s) := by
  unfold takeRx
  cases hs : s.cState with
  | awaiting => exact awaitingByte_receives h hs b
  | rawRead => exact rawByte_receives h hs b
  | disconnected | opening | settling | ready | txWait => exact ⟨s, rfl, h, .inl rfl, rfl⟩

/-- What is pending in the transport is not the block's, so taking it from there or adding to it keeps the outcome. -/
theorem takeRx_pending_receives (h : BlockInv s) (b : Byte) (pending : List Byte) :
    Receives s (takeRx b { s with net := { s.net with rxPending := pending } }) := by
  obtain ⟨t, ht, hinv, hmoves, htx⟩ := takeRx_receives (s := { s with net := { s.net with rxPending := pending } }) h b
  exact ⟨t, ht, hinv, hmoves, htx⟩

theorem receiveByte_receives (h : BlockInv s) (b : Byte) : Receives s (receiveByte b s) := by
  obtain ⟨-, hr⟩ | ⟨-, -, hr⟩ | ⟨x, t, -, -, hr⟩ := receiveByte_cases b s <;> rw [hr]
  · exact ⟨_, rfl, h, .inl rfl, rfl⟩
  · exact takeRx_receives h b
  · exact takeRx_pending_receives h x _

theorem receiveBytes_receives (h : BlockInv s) (bs : List Byte) : Receives s (receiveBytes bs s) := by
  induction bs generalizing s with
  | nil => exact ⟨s, rfl, h, .inl rfl, rfl⟩
  | cons b bs ih =>
    obtain ⟨t, hb, ht⟩ := receiveByte_receives h b
    obtain ⟨u, hbs, hu⟩ := ih ht.inv
    exact ⟨u, (receiveBytes_cons hb).trans hbs, ht.trans hu⟩

theorem raiseByte_receives (h : BlockInv s) : Receives s (raiseByte s) := by
  unfold raiseByte
  split
  · exact ⟨s, rfl, h, .inl rfl, rfl⟩
  · exact takeRx_pending_receives h _ _

/-! ## Events -/

theorem transportError_safe (h : BlockInv s) (hmove : cMove s.cState .disconnected = true) :
    SafeStep s (closedWith s (absentRecord .transportError)) :=
  closed_safe h (recordInv_absent .transportError) hmove

theorem exec_rxError_safe (h : BlockInv s) : Safe s (exec .rxError s) := by
  cases hwait : readWait s with
  | false => exact ⟨_, exec_rxError_latched hwait, safeStep_kept h rfl rfl⟩
  | true =>
    refine ⟨_, exec_rxError_readWait hwait, transportError_safe h ?_⟩
    obtain hs | hs := readWait_iff.1 hwait <;> rw [hs] <;> rfl

theorem exec_txError_safe (h : BlockInv s) : Safe s (exec .txError s) := by
  by_cases hs : s.cState = .txWait
  · exact ⟨_, exec_txError_txWait hs, transportError_safe h (by rw [hs]; rfl)⟩
  · exact ⟨_, exec_txError_latched hs, safeStep_kept h rfl rfl⟩

/-- The write has drained: the request's deadline is armed or has expired, or the FLUSH is over. -/
theorem drained_safe (h : BlockInv s) (hstate : s.cState = .txWait) : SafeStep s (drained s.begin) := by
  have hconnected : s.connected = true := by rw [h.connected_eq, hstate]; rfl
  have hidle : FramerIdle s.framer := h.idle (by simp [hstate])
  obtain hop | hop := h.op_txWait hstate
  · by_cases ht : s.tLat = 0#32
    · rw [drained_sendCommand_zero hop ht]
      exact ⟨h.closed (recordInv_absent .timeout) 0#32, by rw [hstate]; rfl, .inl rfl⟩
    · rw [drained_sendCommand_armed hop ht]
      exact ⟨h.awaiting hconnected h.framer (by rw [hop]; rfl) ht, by rw [hstate]; rfl, .inl rfl⟩
  · rw [drained_flush hop]
    exact ⟨h.ended_ready hidle h.framer hconnected (recordInv_ok []), by rw [hstate]; rfl, .inl rfl⟩

theorem exec_txDrained_safe (h : BlockInv s) : Safe s (exec .txDrained s) := by
  by_cases hs : s.cState = .txWait
  · exact ⟨_, exec_txDrained_txWait hs, drained_safe h hs⟩
  · exact ⟨_, exec_txDrained_disabled hs, safeStep_kept h rfl rfl⟩

/-- The line, where there is one, is the only growth of TX outside a frame (R52, R186). -/
theorem lineSent_tx (s : State) :
    (lineSent s).net.tx = s.net.tx ∨ (lineSent s).net.tx = s.net.tx ++ s.cfg.authLine := by
  cases h : s.cfg.authEn with
  | true => exact .inr (by rw [lineSent_auth h, State.txAppend_net])
  | false => exact .inl (by rw [lineSent_noAuth h])

theorem opened_safe (h : BlockInv s) (hstate : s.cState = .opening) : SafeStep s (opened s.begin) := by
  have hidle : FramerIdle s.framer := h.idle (by simp [hstate])
  have htx : TxStep s (lineSent s.begin) := by
    obtain htx | htx := lineSent_tx s.begin
    · exact .inl htx
    · exact .inr (.inr (.inl htx))
  have hop : s.cOp = .connect := by
    have hfits := h.op_fits
    rw [hstate] at hfits
    cases hc : s.cOp with
    | connect => rfl
    | none | sendCommand | readOne | flush | rawDrain => rw [hc] at hfits; cases hfits
  by_cases hsettle : s.cfg.settleTicks = 0#32
  · rw [opened_settled (s := s.begin) hsettle]
    refine ⟨?_, by rw [hstate]; rfl, htx⟩
    rw [lineSent_begin]
    exact h.ended_ready hidle h.framer rfl (recordInv_ok []) 0#32
  · rw [opened_settling (s := s.begin) hsettle]
    refine ⟨?_, by rw [hstate]; rfl, htx⟩
    have hconnected : s.connected = false := by rw [h.connected_eq, hstate]; rfl
    rw [lineSent_begin]
    exact h.change (fun _ => hidle) h.framer hconnected (by rw [hop]; rfl) (fun _ => hsettle) (by simp) h.record

theorem exec_openOk_safe (h : BlockInv s) : Safe s (exec .openOk s) := by
  by_cases hs : s.cState = .opening
  · exact ⟨_, exec_openOk_opening hs, opened_safe h hs⟩
  · exact ⟨_, exec_openOk_disabled hs, safeStep_kept h rfl rfl⟩

theorem exec_openFail_safe (h : BlockInv s) : Safe s (exec .openFail s) := by
  by_cases hs : s.cState = .opening
  · refine ⟨_, openFailReportsTransportError s hs, ?_, by rw [hs]; rfl, .inl rfl⟩
    have hidle : FramerIdle s.framer := h.idle (by simp [hs])
    have hconnected : s.connected = false := by rw [h.connected_eq, hs]; rfl
    exact h.change (c := .disconnected) (timer := s.timer) (dLen := s.dLen) (fun _ => hidle) h.framer hconnected rfl
      (by simp) (by simp) (recordInv_absent .transportError)
  · exact ⟨_, exec_openFail_disabled hs, safeStep_kept h rfl rfl⟩

/-! ## Time -/

/-- A counter that does not expire is not at 0 after the TICK (R256). -/
theorem counter_pred_ne_zero {t : U32} (h : 1 < t.toNat) : t - 1 ≠ 0#32 := by bv_omega

theorem settlingTick_safe (h : BlockInv s) (hstate : s.cState = .settling) : SafeStep s (settlingTick s) := by
  have hidle : FramerIdle s.framer := h.idle (by simp [hstate])
  by_cases ht : s.timer.toNat ≤ 1
  · rw [settlingTick_expires ht]
    exact ⟨h.ended_ready hidle h.framer rfl (recordInv_ok []) 0, by rw [hstate]; rfl, .inl rfl⟩
  · rw [settlingTick_counts (by omega)]
    exact safeStep_kept (h.change h.idle h.framer h.connected_eq h.op_fits
      (fun _ => counter_pred_ne_zero (by omega)) h.room h.record) rfl rfl

theorem awaitingTick_safe (h : BlockInv s) (hstate : s.cState = .awaiting) : SafeStep s (awaitingTick s) := by
  by_cases ht : s.timer.toNat ≤ 1
  · rw [awaitingTick_expires ht]
    have hrecord := recordInv_absent .timeout
    rw [← completionRecord_absent] at hrecord
    exact (awaitFail_received h hstate hrecord 0).safe
  · rw [awaitingTick_counts (by omega)]
    exact safeStep_kept (h.change h.idle h.framer h.connected_eq h.op_fits
      (fun _ => counter_pred_ne_zero (by omega)) h.room h.record) rfl rfl

theorem rawTick_safe (h : BlockInv s) (hstate : s.cState = .rawRead) : Safe s (rawTick s) := by
  have hconnected : s.connected = true := by rw [h.connected_eq, hstate]; rfl
  have hidle : FramerIdle s.framer := h.idle (by simp [hstate])
  have hcounts (ht : 1 < s.timer.toNat) : BlockInv { s with timer := s.timer - 1 } :=
    h.change h.idle h.framer h.connected_eq h.op_fits (fun _ => counter_pred_ne_zero ht) h.room h.record
  have hroom := h.room hstate
  by_cases ht : s.timer.toNat ≤ 1
  · refine ⟨_, (rawTick_windowOver ht).trans (drainDone_eq (Nat.le_of_lt hroom)), ?_, by rw [hstate]; rfl, .inl rfl⟩
    exact h.ended_ready hidle h.framer hconnected (recordInv_ok _) 0
  · by_cases ht2 : s.timer2.toNat ≤ 1
    · by_cases hbytes : 0 < s.dLen
      · exact ⟨_, rawTick_restarts (by omega) ht2 hbytes, safeStep_kept (hcounts (by omega)) rfl rfl⟩
      · refine ⟨_, rawTick_silent (by omega) ht2 (by omega), ?_, by rw [hstate]; rfl, .inl rfl⟩
        exact h.ended_ready hidle h.framer hconnected (recordInv_ok []) (s.timer - 1)
    · exact ⟨_, rawTick_counts (by omega) (by omega), safeStep_kept (hcounts (by omega)) rfl rfl⟩

theorem SafeStep.of_begin {t : State} (h : SafeStep s.begin t) : SafeStep s t := ⟨h.inv, h.moves, h.tx⟩

theorem Safe.of_begin {r : StepResult} (h : Safe s.begin r) : Safe s r := by
  obtain ⟨t, hr, ht⟩ := h
  exact ⟨t, hr, ht.of_begin⟩

theorem exec_tick_safe (h : BlockInv s) : Safe s (exec .tick s) := by
  cases hs : s.cState with
  | settling => exact ⟨_, exec_tick_settling hs, (settlingTick_safe (s := s.begin) h hs).of_begin⟩
  | awaiting => exact ⟨_, exec_tick_awaiting hs, (awaitingTick_safe (s := s.begin) h hs).of_begin⟩
  | rawRead =>
    rw [exec_tick_rawRead hs]
    exact (rawTick_safe (s := s.begin) h hs).of_begin
  | disconnected | opening | ready | txWait =>
    exact ⟨_, exec_tick_disabled (by simp [hs]) (by simp [hs]) (by simp [hs]), safeStep_kept h rfl rfl⟩

/-! ## RESET -/

/-- The free values RESET leaves in the buffers and in `d_len` are cut to their ranges (R271). -/
theorem exec_reset_safe (h : BlockInv s) : Safe s (exec .reset s) := by
  refine ⟨_, exec_reset s, ⟨h.cfg, fun _ => ⟨rfl, rfl, rfl⟩, ?_, ⟨rfl, rfl, by simp, by simp⟩, ?_, ?_, h.held⟩, ?_,
    .inr (.inl rfl)⟩
  · exact FramerIdle.inv ⟨rfl, rfl, rfl⟩ (memOfBytes_ok _ _).1 (memOfBytes_ok _ _).2
  · exact recordInv_ok []
  · exact ⟨(memOfBytes_ok _ _).1, (memOfBytes_ok _ _).2, (memOfBytes_ok _ _).1, (memOfBytes_ok _ _).2⟩
  · show cMove s.cState .disconnected = true
    cases s.cState <;> rfl

/-! ## Every input, the transport's turn, the step -/

theorem exec_safe (h : BlockInv s) {i : Instr} (hi : i.wf s.cfg.drainMax = true) : Safe s (exec i s) := by
  cases i with
  | reset => exact exec_reset_safe h
  | rxByte b => exact (receiveByte_receives (s := s.begin) h b).safe.of_begin
  | rxError => exact exec_rxError_safe h
  | txDrained => exact exec_txDrained_safe h
  | txError => exact exec_txError_safe h
  | openOk => exact exec_openOk_safe h
  | openFail => exact exec_openFail_safe h
  | tick => exact exec_tick_safe h
  | frameS _ _ _ | frameL _ _ _ | lenS _ | lenL _ => exact (receiveBytes_receives (s := s.begin) h _).safe.of_begin
  | crc16 _ | encode _ | decode _ | connect | disconnect | sendCommand _ _ _ _ | readOne _ _ | xmit _ | flush
  | rawDrain _ _ | crcInit | crcByte _ | reserved0 | reservedD | reservedE | reservedF | fwVersion | getValues _
  | forwardCan _ _ | pingCan | getCustomConfig _ | bmsGetValues => exact exec_hostOperation_safe h hi rfl

theorem readWaitIdle_safe (h : BlockInv s) (hwait : readWait s = true) : Safe s (readWaitIdle s) := by
  have hmove : cMove s.cState .disconnected = true := by
    obtain hs | hs := readWait_iff.1 hwait <;> rw [hs] <;> rfl
  by_cases hfail : s.net.rxFailed = true ∨ s.net.txFailed = true
  · obtain hr | hr := readWaitIdle_failure hfail <;> rw [hr]
    · refine ⟨_, rfl, ?_, hmove, .inl rfl⟩
      exact h.closed (recordInv_absent .transportError)
    · obtain ⟨t, ht, hinv, hmoves, htx⟩ := raiseByte_receives (s := { s with freeCount := s.freeCount + 1 }) h
      exact ⟨t, ht, Received.safe ⟨hinv, hmoves, htx⟩⟩
  · simp only [not_or, Bool.not_eq_true] at hfail
    rw [readWaitIdle_noFailure hfail.1 hfail.2]
    exact (raiseByte_receives h).safe

theorem txWaitIdle_safe (h : BlockInv s) (hstate : s.cState = .txWait) : SafeStep s (txWaitIdle s.begin) := by
  cases hfail : s.net.txFailed with
  | true =>
    rw [txWaitIdle_failed (s := s.begin) hfail, State.begin_teardown]
    exact transportError_safe h (by rw [hstate]; rfl)
  | false =>
    by_cases hempty : s.net.undrained = []
    · rw [txWaitIdle_drained (s := s.begin) hfail hempty]
      exact drained_safe h hstate
    · rw [txWaitIdle_waits (s := s.begin) hfail hempty]
      exact safeStep_kept h rfl rfl

theorem transportTurn_safe (h : BlockInv s) : Safe s (transportTurn s) := by
  cases hs : s.cState with
  | awaiting | rawRead =>
    have hwait : readWait s = true := readWait_iff.2 (by simp [hs])
    rw [transportTurn_readWait hwait]
    exact (readWaitIdle_safe (s := s.begin) h hwait).of_begin
  | txWait => exact ⟨_, transportTurn_txWait hs, txWaitIdle_safe h hs⟩
  | disconnected | opening | settling | ready =>
    exact ⟨_, transportTurn_quiet (by simp [hs]) (by simp [hs]) (by simp [hs]), safeStep_kept h rfl rfl⟩

/-- The input a step takes is inside its limits, and without it the state still meets the invariant. -/
theorem fetch_run_inv (h : BlockInv s) {i : Instr} {t : State} (hf : fetch s = .run i t) :
    BlockInv t ∧ i.wf t.cfg.drainMax = true ∧ t.cState = s.cState ∧ t.net = s.net ∧ t.cfg = s.cfg := by
  obtain ⟨rest, -, hheld, rfl⟩ | ⟨x, rest, tail, -, -, hi, rfl⟩ := fetch_run hf
  · have hall := h.held
    rw [hheld, List.all_cons, Bool.and_eq_true] at hall
    exact ⟨h.with_held hall.2, hall.1, rfl, rfl, rfl⟩
  · exact ⟨h, hi, rfl, rfl, rfl⟩

/-- A step has a next state in which the machine may go on, or refuses bytes that are no input. -/
theorem step_safe (h : BlockInv s) : Safe s (step s) ∨ ∃ r, step s = .refused r := by
  obtain ⟨i, t, hf, hs⟩ | ⟨r, -, hs⟩ | ⟨-, hs⟩ := step_cases s
  · obtain ⟨ht, hi, hstate, hnet, hcfg⟩ := fetch_run_inv h hf
    obtain ⟨u, hu, hinv, hmoves, htx⟩ := exec_safe ht hi
    refine .inl ⟨u, hs.trans hu, hinv, hstate ▸ hmoves, ?_⟩
    rwa [TxStep, hnet, hcfg] at htx
  · exact .inr ⟨r, hs⟩
  · exact .inl (hs ▸ transportTurn_safe h)

theorem safeStep_of_step (h : BlockInv s) {t : State} (ht : step s = .next t) : SafeStep s t := by
  obtain ⟨u, hu, hsafe⟩ | ⟨r, hr⟩ := step_safe h
  · obtain rfl := Host.Outcome.next.inj (ht.symm.trans hu)
    exact hsafe
  · cases ht.symm.trans hr

end

/-! ## The statements -/

/-- Settles O52. -/
theorem stepKeepsTheInvariant : Obligations.StepKeepsTheInvariant := fun _ _ h ht => (safeStep_of_step h ht).inv

/-- Settles O49. -/
theorem correlatorMovesByTheTable : Obligations.CorrelatorMovesByTheTable :=
  fun _ _ h ht => (safeStep_of_step h ht).moves

/-- Settles O48. -/
theorem txGrowsByWholeFrames : Obligations.TxGrowsByWholeFrames := fun _ _ h ht => (safeStep_of_step h ht).tx

/-- Settles O54: every meaning has a next state, and `step` itself only refuses. -/
theorem nothingStopsTheBlock : Obligations.NothingStopsTheBlock := by
  intro s h
  refine ⟨fun i hi => ?_, fun f hf => ?_⟩
  · obtain ⟨t, ht, -⟩ := exec_safe h hi
    exact ⟨t, ht⟩
  · obtain ⟨t, ht, -⟩ | ⟨r, hr⟩ := step_safe h
    · cases hf.symm.trans ht
    · cases hf.symm.trans hr

end Sys2Proof.Machine
end

section
/-! Decoding what was encoded (R81 to R86, R95, R100, R103): each operand reads back from its own bytes, and every input
from the bytes of its operands. -/

namespace Sys2Proof

/-! ## Operands -/

theorem takeBytes_append (s r : List Byte) : takeBytes s.length (s ++ r) = .ok (s, r) := by
  simp [takeBytes]

/-- The two bytes of a count are the count (R101). -/
theorem count_toNat {n : Nat} (h : n < 65536) :
    (BitVec.ofNat 8 (n / 256)).toNat * 256 + (BitVec.ofNat 8 n).toNat = n := by
  simp only [BitVec.toNat_ofNat]
  omega

theorem takeString_bytesString {limit : Nat} {s : List Byte} (r : List Byte) (hlimit : s.length ≤ limit)
    (hcount : s.length < 65536) : takeString limit (bytesString s ++ r) = .ok (s, r) := by
  simp only [bytesString, bytesCount, List.cons_append, List.nil_append, takeString, count_toNat hcount]
  rw [if_pos hlimit, takeBytes_append]

theorem takeBit_bytesBit (b : Bool) (r : List Byte) : takeBit (bytesBit b ++ r) = .ok (b, r) := by
  cases b <;> rfl

theorem joinU32_bytes (v : U32) :
    joinU32 (v.extractLsb' 24 8) (v.extractLsb' 16 8) (v.extractLsb' 8 8) (v.extractLsb' 0 8) = v := by
  have h₁ : v.extractLsb' 24 8 ++ v.extractLsb' 16 8 = v.extractLsb' 16 16 :=
    BitVec.extractLsb'_append_extractLsb'_eq_extractLsb' rfl
  have h₂ : v.extractLsb' 16 16 ++ v.extractLsb' 8 8 = v.extractLsb' 8 24 :=
    BitVec.extractLsb'_append_extractLsb'_eq_extractLsb' rfl
  have h₃ : v.extractLsb' 8 24 ++ v.extractLsb' 0 8 = v.extractLsb' 0 32 :=
    BitVec.extractLsb'_append_extractLsb'_eq_extractLsb' rfl
  rw [joinU32, h₁, h₂, h₃, BitVec.extractLsb'_eq_self]

theorem takeU32_bytesU32 (v : U32) (r : List Byte) : takeU32 (bytesU32 v ++ r) = .ok (v, r) := by
  simp only [bytesU32, List.cons_append, List.nil_append, takeU32, joinU32_bytes]

theorem joinU16_bytes (c : U16) : joinU16 (hiByte c) (loByte c) = c :=
  (BitVec.extractLsb'_append_extractLsb'_eq_extractLsb' rfl).trans BitVec.extractLsb'_eq_self

theorem takeCrcStop_bytes (c : U16) (stop : Byte) :
    takeCrcStop [hiByte c, loByte c, stop] = .ok ((c, stop), []) := by
  rw [takeCrcStop, joinU16_bytes]

/-! ## The host port, the events and the commands -/

/-- Reading an operand that is there goes on with it. -/
@[simp] theorem except_ok_bind {α β : Type} (a : α) (k : α → Except DecodeError β) :
    (Except.ok a >>= k) = k a := rfl

/-- An input that is read off one byte-string operand. -/
theorem decode_oneString {limit : Nat} {s : List Byte} {f : List Byte → Instr}
    {r : Except DecodeError (Instr × List Byte)}
    (hr : r = (do let (x, rest) ← takeString limit (bytesString s); .ok (f x, rest)))
    (hlimit : s.length ≤ limit) (hcount : limit < 65536) : r = .ok (f s, []) := by
  have hread := takeString_bytesString [] hlimit (by omega)
  rw [List.append_nil] at hread
  rw [hr, hread]
  rfl

theorem decode_sendCommand {cmd : Byte} {args : List Byte} (useDefault : Bool) (timeout : U32)
    (h : args.length < maxPayload) :
    decodeHost 0x6 (cmd :: (bytesString args ++ bytesBit useDefault ++ bytesU32 timeout)) =
      .ok (.sendCommand cmd args useDefault timeout, []) := by
  have hargs := takeString_bytesString (limit := maxPayload - 1) (s := args)
    (bytesBit useDefault ++ (bytesU32 timeout ++ [])) (by omega) (by rw [maxPayload] at h; omega)
  rw [← List.append_nil (bytesU32 timeout), List.append_assoc]
  simp only [decodeHost, takeByte, hargs, takeBit_bytesBit, takeU32_bytesU32, except_ok_bind]

theorem decode_readOne (useDefault : Bool) (timeout : U32) :
    decodeHost 0x7 (bytesBit useDefault ++ bytesU32 timeout) = .ok (.readOne useDefault timeout, []) := by
  rw [← List.append_nil (bytesU32 timeout)]
  simp only [decodeHost, takeBit_bytesBit, takeU32_bytesU32, except_ok_bind]

theorem decode_rawDrain (window perRead : U32) :
    decodeHost 0xA (bytesU32 window ++ bytesU32 perRead) = .ok (.rawDrain window perRead, []) := by
  rw [← List.append_nil (bytesU32 perRead)]
  simp only [decodeHost, takeU32_bytesU32, except_ok_bind]

theorem decode_forwardCan (target : Byte) {inner : List Byte} (h : inner.length + 1 < maxPayload) :
    decodeCommand 0x22 (target :: bytesString inner) = .ok (.forwardCan target inner, []) := by
  have hinner := takeString_bytesString (limit := maxPayload - 2) (s := inner) [] (by omega)
    (by rw [maxPayload] at h; omega)
  rw [← List.append_nil (bytesString inner)]
  simp only [decodeCommand, takeByte, hinner, except_ok_bind]

/-! ## Length fields and frames -/

/-- Below 128 the length byte has bit 7 clear and is the length (R85, R86). -/
theorem shortLength {n : Nat} (h : n < 128) :
    (BitVec.ofNat 8 n).msb = false ∧ (BitVec.ofNat 8 n).toNat = n := by
  have hval : (BitVec.ofNat 8 n).toNat = n := by
    rw [BitVec.toNat_ofNat]
    omega
  exact ⟨by rw [BitVec.msb_eq_false_iff_two_mul_lt, hval]; omega, hval⟩

/-- The first byte of a long length field has bit 7 set and holds the upper seven bits (R85, R86). -/
theorem longLength (n : U15) :
    (1#1 ++ n.extractLsb' 8 7 : Byte).msb = true ∧
    ((1#1 ++ n.extractLsb' 8 7 : Byte).toNat - 128) * 256 + (n.extractLsb' 0 8).toNat = n.toNat := by
  have hhigh : (1#1 ++ n.extractLsb' 8 7 : Byte).toNat = 128 + (n.extractLsb' 8 7).toNat := by
    rw [BitVec.toNat_append]
    exact (Nat.shiftLeft_add_eq_or_of_lt (n.extractLsb' 8 7).isLt 1).symm
  refine ⟨?_, ?_⟩
  · rw [BitVec.msb_eq_true_iff_two_mul_ge, hhigh]
    omega
  · have hn := n.isLt
    rw [hhigh]
    simp only [BitVec.extractLsb'_toNat, Nat.shiftRight_eq_div_pow]
    omega

theorem decode_frame (b : Byte) (bs : List Byte) : decode .frame (b :: bs) = decodeFrame b bs := rfl

theorem decode_length (b : Byte) (bs : List Byte) : decode .length (b :: bs) = decodeLength b bs := rfl

theorem decode_frameS {p : List Byte} (crc : U16) (stop : Byte) (h : p.length < 128) :
    decodeFrame (BitVec.ofNat 8 p.length) (p ++ [hiByte crc, loByte crc, stop]) = .ok (.frameS p crc stop, []) := by
  obtain ⟨hmsb, hval⟩ := shortLength h
  rw [decodeFrame, hmsb, hval, takeBytes_append]
  simp [takeCrcStop_bytes]

theorem decode_frameL {p : List Byte} (crc : U16) (stop : Byte) (h : p.length ≤ maxPayload) :
    decode .frame (lenFieldLong (BitVec.ofNat 15 p.length) ++ p ++ [hiByte crc, loByte crc, stop]) =
      .ok (.frameL p crc stop, []) := by
  obtain ⟨hmsb, hval⟩ := longLength (BitVec.ofNat 15 p.length)
  have hlen : (BitVec.ofNat 15 p.length).toNat = p.length := by
    rw [BitVec.toNat_ofNat]
    rw [maxPayload] at h
    omega
  rw [hlen] at hval
  rw [lenFieldLong, List.append_assoc]
  simp only [List.cons_append, List.nil_append, decode_frame, decodeFrame, hmsb, takeByte, except_ok_bind, hval,
    takeBytes_append, takeCrcStop_bytes, if_true]

/-- The two bytes of a long length field hold the length around the bit that marks the form (R85). -/
theorem lenFieldLong_value (n : U15) :
    (1#1 ++ n.extractLsb' 8 7 : Byte).extractLsb' 0 7 ++ n.extractLsb' 0 8 = n := by
  have hhigh : (1#1 ++ n.extractLsb' 8 7 : Byte).extractLsb' 0 7 = n.extractLsb' 8 7 :=
    BitVec.extractLsb'_append_eq_right
  rw [hhigh]
  exact (BitVec.extractLsb'_append_extractLsb'_eq_extractLsb' rfl).trans BitVec.extractLsb'_eq_self

theorem decode_lenL (n : U15) : decode .length (lenFieldLong n) = .ok (.lenL n, []) := by
  obtain ⟨hmsb, -⟩ := longLength n
  simp only [lenFieldLong, decode_length, decodeLength, hmsb, takeByte, except_ok_bind, if_true]
  exact congrArg (fun m => Except.ok (Instr.lenL m, ([] : List Byte))) (lenFieldLong_value n)

theorem shortLength_msb (n : BitVec 7) : (0#1 ++ n : Byte).msb = false := by
  rw [BitVec.msb_append]
  rfl

theorem decode_lenS (n : BitVec 7) : decode .length [0#1 ++ n] = .ok (.lenS n, []) := by
  have hlow : (0#1 ++ n : Byte).extractLsb' 0 7 = n := BitVec.extractLsb'_append_eq_right
  simp only [decode_length, decodeLength, shortLength_msb]
  exact congrArg (fun m => Except.ok (Instr.lenS m, ([] : List Byte))) hlow

/-- A short length byte reads as its own lower seven bits (R86). -/
theorem decode_shortLength {b : Byte} (hmsb : b.msb = false) :
    decode .length [b] = .ok (.lenS (b.setWidth 7), []) := by
  have hlow : b.extractLsb' 0 7 = b.setWidth 7 := BitVec.eq_of_toNat_eq (by simp)
  simp only [decode_length, decodeLength, hmsb, hlow]
  rfl

/-- The upper seven bits of a length stand in the first byte, below the bit that marks the long form (R86). -/
theorem longLength_value (b0 b1 : Byte) :
    b0.extractLsb' 0 7 ++ b1 = ((b0 &&& 0x7F#8).setWidth 15 <<< 8) ||| b1.setWidth 15 := by
  have hmask : b0.toNat &&& 127 % 2 ^ 8 = b0.toNat % 2 ^ 7 := Nat.and_two_pow_sub_one_eq_mod b0.toNat 7
  have hhigh : ((b0.toNat % 2 ^ 7) % 2 ^ (7 + 8)) <<< 8 % 2 ^ (7 + 8) = (b0.toNat % 2 ^ 7) <<< 8 := by
    simp only [Nat.shiftLeft_eq]
    omega
  have hlow : b1.toNat % 2 ^ (7 + 8) = b1.toNat := Nat.mod_eq_of_lt (Nat.lt_trans b1.isLt (by decide))
  refine BitVec.eq_of_toNat_eq ?_
  simp only [BitVec.toNat_append, BitVec.extractLsb'_toNat, BitVec.toNat_or, BitVec.toNat_shiftLeft,
    BitVec.toNat_setWidth, BitVec.toNat_and, BitVec.toNat_ofNat, Nat.shiftRight_zero, hmask, hhigh, hlow]

/-- Settles O9: by the form of the length field, and by bit 7 of the first byte. -/
theorem lengthFieldReadsBack : Obligations.LengthFieldReadsBack := by
  refine ⟨fun n hn => ?_, fun b0 hmsb => decode_shortLength hmsb, fun b0 b1 hmsb => ?_⟩
  · split
    · next hshort =>
      have hlow : (BitVec.ofNat 8 n).setWidth 7 = BitVec.ofNat 7 n := BitVec.eq_of_toNat_eq (by simp)
      rw [lenField, if_pos hshort, decode_shortLength (shortLength hshort).1, hlow]
    · next hlong => rw [Machine.lenField_long hlong hn, decode_lenL]
  · simp only [decode_length, decodeLength, hmsb, takeByte, except_ok_bind, if_true, longLength_value]

/-- Settles O56: each word by evaluation. -/
theorem knownWordsDecode : Obligations.KnownWordsDecode :=
  ⟨rfl, by decide, rfl, rfl, rfl, by decide, by decide, by decide, rfl⟩

/-- Settles O55: operand by operand, each constructor of Instr on its port. -/
theorem everyInputReadsBack : Obligations.EveryInputReadsBack := by
  intro drainMax i hi
  cases i with
  | reserved0 | connect | disconnect | flush | crcInit | crcByte _ | reservedD | reservedE | reservedF => rfl
  | reset | rxByte _ | rxError | txDrained | txError | openOk | openFail | tick => rfl
  | fwVersion | pingCan | getCustomConfig _ | bmsGetValues => rfl
  | crc16 s | encode s | xmit s => exact decode_oneString rfl (of_decide_eq_true hi) (by decide)
  | decode s =>
    rw [Instr.wf, Bool.and_eq_true] at hi
    have hcount : s.length < 65536 := of_decide_eq_true hi.2
    exact decode_oneString rfl (by omega) (by decide)
  | sendCommand cmd args useDefault timeout => exact decode_sendCommand useDefault timeout (of_decide_eq_true hi)
  | readOne useDefault timeout => exact decode_readOne useDefault timeout
  | rawDrain window perRead => exact decode_rawDrain window perRead
  | getValues args =>
    have hargs : args.length < maxPayload := of_decide_eq_true hi
    exact decode_oneString rfl (by omega) (by decide)
  | forwardCan target inner => exact decode_forwardCan target (of_decide_eq_true hi)
  | frameS p crc stop =>
    have hp : p.length < 128 := of_decide_eq_true hi
    rw [encode, lenField, if_pos hp]
    exact decode_frameS crc stop hp
  | frameL p crc stop => exact decode_frameL crc stop (of_decide_eq_true hi)
  | lenS n => exact decode_lenS n
  | lenL n => exact decode_lenL n

end Sys2Proof
end

section
/-! What a step leaves alone: `crc` and `TXBUF`, which only their own operations write (R20, R21, R286), and
`connected`, which only the end of the settle wait sets (R188, D17). -/

namespace Sys2Proof.Machine

/-! ## Changes that leave `crc`, `TXBUF` and a missing connection -/

/-- From `s` to `t` neither `crc` nor `TXBUF` changes, and no connection comes up. -/
structure Calm (s t : State) : Prop where
  crc : t.crc = s.crc
  txbuf : t.txbuf = s.txbuf
  connected : t.connected = true → s.connected = true

theorem Calm.refl (s : State) : Calm s s := ⟨rfl, rfl, id⟩

/-- Registers other than the three do not count. -/
theorem Calm.same {s t u : State} (h : Calm s t) (hcrc : u.crc = t.crc := by rfl) (htxbuf : u.txbuf = t.txbuf := by rfl)
    (hconnected : u.connected = t.connected := by rfl) : Calm s u :=
  ⟨hcrc.trans h.crc, htxbuf.trans h.txbuf, fun hu => h.connected (hconnected.symm.trans hu)⟩

section
variable {s t : State} (h : Calm s t)
include h

theorem Calm.begin : Calm s t.begin := h.same

theorem Calm.teardown (ca : Cause) (c st : Bool) : Calm s (t.teardown ca c st) := ⟨h.crc, h.txbuf, nofun⟩

theorem Calm.awaitFail (ca : Cause) (c st : Bool) : Calm s (awaitFail ca c st t) := by
  by_cases hop : t.cOp = .sendCommand
  · rw [awaitFail_sendCommand hop]
    exact ⟨h.crc, h.txbuf, nofun⟩
  · rw [awaitFail_other hop]
    exact h.same

theorem Calm.armAwait (ticks : U32) : Calm s (armAwait ticks t) := by
  by_cases hticks : ticks = 0#32
  · rw [armAwait_expired hticks]
    exact h.same.awaitFail _ _ _
  · rw [armAwait_pos hticks]
    exact h.same

/-! ## Bytes from the peer -/

theorem Calm.awaitingByte (b : Byte) : EndsIn (Calm s) (awaitingByte b t) := by
  refine endsIn_orBounds fun r _ => ?_
  obtain ⟨f, v⟩ := r
  cases v with
  | pending | accept _ => exact endsIn_next.2 h.same
  | reject c st => exact endsIn_next.2 (h.same.awaitFail _ _ _)

theorem Calm.drainDone : EndsIn (Calm s) (drainDone t) :=
  endsIn_orBounds fun _ _ => endsIn_next.2 h.same

theorem Calm.rawByte (b : Byte) : EndsIn (Calm s) (rawByte b t) := by
  refine endsIn_orBounds fun m _ => ?_
  split
  · exact h.same.drainDone
  · exact endsIn_next.2 h.same

theorem Calm.takeRx (b : Byte) : EndsIn (Calm s) (takeRx b t) := by
  unfold Machine.takeRx
  cases t.cState with
  | awaiting => exact h.awaitingByte b
  | rawRead => exact h.rawByte b
  | disconnected | opening | settling | ready | txWait => exact endsIn_next.2 h

theorem Calm.receiveByte (b : Byte) : EndsIn (Calm s) (receiveByte b t) := by
  obtain ⟨-, hr⟩ | ⟨-, -, hr⟩ | ⟨x, rest, -, -, hr⟩ := receiveByte_cases b t <;> rw [hr]
  · exact endsIn_next.2 h.same
  · exact h.takeRx b
  · exact h.same.takeRx x

theorem Calm.receiveBytes (bs : List Byte) : EndsIn (Calm s) (receiveBytes bs t) :=
  endsIn_receiveBytes (fun b _ hu => Calm.receiveByte hu b) bs h

theorem Calm.raiseByte : EndsIn (Calm s) (raiseByte t) := by
  unfold Machine.raiseByte
  split
  · exact endsIn_next.2 h
  · exact h.same.takeRx _

/-! ## Events and the transport's turn -/

theorem Calm.drained : Calm s (drained t) := by
  cases hop : t.cOp with
  | sendCommand =>
    rw [drained_sendCommand hop]
    exact h.same.armAwait _
  | flush | none | connect | readOne | rawDrain =>
    simp only [Machine.drained, hop]
    exact h.same

theorem Calm.awaitingTick : Calm s (awaitingTick t) := by
  unfold Machine.awaitingTick
  split
  · exact h.same.awaitFail _ _ _
  · exact h.same

theorem Calm.rawTick : EndsIn (Calm s) (rawTick t) := by
  unfold Machine.rawTick
  split
  · exact h.same.drainDone
  · split
    · split <;> exact endsIn_next.2 h.same
    · exact endsIn_next.2 h.same

theorem Calm.readWaitIdle : EndsIn (Calm s) (readWaitIdle t) := by
  unfold Machine.readWaitIdle
  split
  · split
    · exact endsIn_next.2 ⟨h.crc, h.txbuf, nofun⟩
    · exact h.same.raiseByte
  · exact h.raiseByte

theorem Calm.txWaitIdle : Calm s (txWaitIdle t) := by
  unfold Machine.txWaitIdle
  split
  · exact h.teardown _ _ _
  · split
    · exact h.drained
    · exact h

theorem Calm.lineSent : Calm s (lineSent t) := by
  cases hauth : t.cfg.authEn with
  | true =>
    rw [lineSent_auth hauth]
    exact h.same
  | false =>
    rw [lineSent_noAuth hauth]
    exact h

end

theorem transportTurn_calm (s : State) : EndsIn (Calm s) (transportTurn s) := by
  have hbegin := (Calm.refl s).begin
  unfold transportTurn
  cases s.cState with
  | awaiting | rawRead => exact hbegin.readWaitIdle
  | txWait => exact endsIn_next.2 hbegin.txWaitIdle
  | disconnected | opening | settling | ready => exact endsIn_next.2 hbegin

/-! ## Inputs -/

/-- From `s` to `t` the settle wait ended, or OPEN_OK found none, and CONNECT completed (R186, R188). -/
structure SettleEnds (s t : State) : Prop where
  due : (s.cState = .settling ∧ s.timer.toNat ≤ 1) ∨ (s.cState = .opening ∧ s.cfg.settleTicks = 0#32)
  ready : t.cState = .ready
  record : t.record = okRecord []

/-- `crc` and `TXBUF` stay, and a connection comes up only at the end of the settle wait. -/
structure Quiet (s t : State) : Prop where
  crc : t.crc = s.crc
  txbuf : t.txbuf = s.txbuf
  connected : t.connected = true → s.connected = true ∨ SettleEnds s t

theorem Calm.quiet {s t : State} (h : Calm s t) : Quiet s t := ⟨h.crc, h.txbuf, fun hc => .inl (h.connected hc)⟩

section
variable (s : State)

theorem exec_openOk_quiet : EndsIn (Quiet s) (exec .openOk s) := by
  by_cases hs : s.cState = .opening
  · rw [exec_openOk_opening hs, endsIn_next]
    have hline := (Calm.refl s).begin.lineSent
    by_cases hsettle : s.cfg.settleTicks = 0#32
    · rw [opened_settled (s := s.begin) hsettle]
      exact ⟨hline.crc, hline.txbuf, fun _ => .inr ⟨.inr ⟨hs, hsettle⟩, rfl, rfl⟩⟩
    · rw [opened_settling (s := s.begin) hsettle]
      exact ⟨hline.crc, hline.txbuf, fun hc => .inl (hline.connected hc)⟩
  · rw [exec_openOk_disabled hs, endsIn_next]
    exact (Calm.refl s).begin.quiet

theorem exec_tick_quiet : EndsIn (Quiet s) (exec .tick s) := by
  cases hs : s.cState with
  | settling =>
    rw [exec_tick_settling hs, endsIn_next]
    by_cases ht : s.timer.toNat ≤ 1
    · rw [settlingTick_expires (s := s.begin) ht]
      exact ⟨rfl, rfl, fun _ => .inr ⟨.inl ⟨hs, ht⟩, rfl, rfl⟩⟩
    · rw [settlingTick_counts (s := s.begin) (Nat.lt_of_not_le ht)]
      exact ⟨rfl, rfl, .inl⟩
  | awaiting =>
    rw [exec_tick_awaiting hs, endsIn_next]
    exact (Calm.refl s).begin.awaitingTick.quiet
  | rawRead =>
    rw [exec_tick_rawRead hs]
    exact fun t ht => ((Calm.refl s).begin.rawTick t ht).quiet
  | disconnected | opening | ready | txWait =>
    rw [exec_tick_disabled (by simp [hs]) (by simp [hs]) (by simp [hs]), endsIn_next]
    exact (Calm.refl s).begin.quiet

theorem refuseSelect_calm (i : Instr) : EndsIn (Calm s) (refuseSelect i s) :=
  endsIn_onHostPort (Calm.refl s).same (endsIn_next.2 (Calm.refl s).same)

/-- The inputs outside `writesCrc` that do not end a CONNECT. -/
theorem exec_calm {i : Instr} (hwrites : writesCrc i = false) (hopenOk : i ≠ .openOk) (htick : i ≠ .tick) :
    EndsIn (Calm s) (exec i s) := by
  have h := Calm.refl s
  cases i with
  | decode buf =>
    rw [exec, execDecode]
    exact endsIn_onHostPort h.same (endsIn_orBounds fun _ _ => endsIn_next.2 h.same)
  | connect =>
    rw [exec, execConnect]
    refine endsIn_onHostPort h.same ?_
    split <;> exact endsIn_next.2 ⟨rfl, rfl, nofun⟩
  | disconnect =>
    rw [exec, execDisconnect]
    refine endsIn_onHostPort h.same ?_
    split <;> exact endsIn_next.2 ⟨rfl, rfl, nofun⟩
  | readOne useDefault timeout =>
    rw [exec, execReadOne]
    exact endsIn_onConnection h.same h.same (endsIn_next.2 (h.same.armAwait _))
  | flush =>
    rw [exec, execFlush]
    exact endsIn_onConnection h.same h.same (endsIn_next.2 h.same)
  | rawDrain window perRead =>
    rw [exec, execRawDrain]
    refine endsIn_onConnection h.same h.same ?_
    split <;> exact endsIn_next.2 h.same
  | reserved0 | reservedD | reservedE | reservedF =>
    rw [exec]
    exact refuseSelect_calm s _
  | rxByte b => exact h.begin.receiveByte b
  | frameS _ _ _ | frameL _ _ _ | lenS _ | lenL _ => exact h.begin.receiveBytes _
  | rxError =>
    rw [exec, execRxError]
    split <;> rw [endsIn_next]
    · exact h.begin.teardown _ _ _
    · exact h.same
  | txError =>
    rw [exec, execTxError]
    split <;> rw [endsIn_next]
    · exact h.begin.teardown _ _ _
    · exact h.same
  | txDrained =>
    rw [exec, execTxDrained]
    split <;> rw [endsIn_next]
    · exact h.begin.drained
    · exact h.begin
  | openFail =>
    rw [exec, execOpenFail]
    split <;> exact endsIn_next.2 h.same
  | openOk => exact absurd rfl hopenOk
  | tick => exact absurd rfl htick
  | crc16 _ | encode _ | sendCommand _ _ _ _ | xmit _ | crcInit | crcByte _ | reset | fwVersion | getValues _
  | forwardCan _ _ | pingCan | getCustomConfig _ | bmsGetValues => cases hwrites

theorem exec_quiet {i : Instr} (hwrites : writesCrc i = false) : EndsIn (Quiet s) (exec i s) := by
  by_cases hopenOk : i = .openOk
  · rw [hopenOk]
    exact exec_openOk_quiet s
  · by_cases htick : i = .tick
    · rw [htick]
      exact exec_tick_quiet s
    · exact fun t ht => (exec_calm s hwrites hopenOk htick t ht).quiet

theorem sendRequest_connected (p : List Byte) (timeout : U32) :
    EndsIn (fun t => t.connected = true → s.connected = true) (sendRequest p timeout s) :=
  endsIn_orBounds fun _ _ => endsIn_orBounds fun _ _ => endsIn_next.2 id

/-- The operations that write `crc` bring no connection up. -/
theorem exec_writesCrc_connected {i : Instr} (hwrites : writesCrc i = true) :
    EndsIn (fun t => t.connected = true → s.connected = true) (exec i s) := by
  cases i with
  | crcInit | crcByte _ | crc16 _ =>
    rw [exec]
    exact endsIn_onHostPort id (endsIn_next.2 id)
  | encode p =>
    rw [exec]
    exact endsIn_onHostPort id (endsIn_orBounds fun _ _ => endsIn_orBounds fun _ _ => endsIn_next.2 id)
  | xmit p =>
    rw [exec]
    exact endsIn_onConnection id id (endsIn_orBounds fun _ _ => endsIn_orBounds fun _ _ => endsIn_next.2 id)
  | sendCommand _ _ _ _ | fwVersion | getValues _ | forwardCan _ _ | pingCan | getCustomConfig _ | bmsGetValues =>
    rw [exec]
    exact endsIn_onConnection id id (sendRequest_connected s.begin _ _)
  | reset => exact endsIn_next.2 nofun
  | decode _ | connect | disconnect | readOne _ _ | flush | rawDrain _ _ | reserved0 | reservedD | reservedE
  | reservedF | rxByte _ | rxError | txDrained | txError | openOk | openFail | tick | frameS _ _ _ | frameL _ _ _
  | lenS _ | lenL _ => cases hwrites

theorem exec_connected_rises (i : Instr) :
    EndsIn (fun t => t.connected = true → s.connected = true ∨ SettleEnds s t) (exec i s) := by
  intro t ht
  cases hwrites : writesCrc i with
  | true => exact fun hc => .inl (exec_writesCrc_connected s hwrites t ht hc)
  | false => exact (exec_quiet s hwrites t ht).connected

end

/-- Settles O46: an input that does not write them is quiet. -/
theorem receivingNeverWritesCrc : Obligations.ReceivingNeverWritesCrc := by
  intro s t i hwrites ht
  have hquiet := exec_quiet s hwrites t ht
  exact ⟨hquiet.crc, hquiet.txbuf⟩

/-- Settles O47: no input but the two that end the settle wait brings a connection up, and the transport's turn brings
none. -/
theorem connectedRisesOnlyAfterTheSettleWait : Obligations.ConnectedRisesOnlyAfterTheSettleWait := by
  intro s t ht hdown hup
  have hends : s.connected = true ∨ SettleEnds s t := by
    obtain ⟨i, u, hf, hs⟩ | ⟨r, -, hs⟩ | ⟨-, hs⟩ := step_cases s
    · have hrises := exec_connected_rises u i t (hs.symm.trans ht) hup
      obtain ⟨rest, -, -, rfl⟩ | ⟨x, rest, tail, -, -, -, rfl⟩ := fetch_run hf
      · exact hrises.imp_right fun h => ⟨h.due, h.ready, h.record⟩
      · exact hrises.imp_right fun h => ⟨h.due, h.ready, h.record⟩
    · cases hs.symm.trans ht
    · exact .inl ((transportTurn_calm s t (hs.symm.trans ht)).connected hup)
  obtain hc | h := hends
  · exact absurd (hc.symm.trans hdown) nofun
  · exact ⟨h.due, h.ready, h.record⟩

end Sys2Proof.Machine
end

section
/-! The wire rows (R51, R57, R81, R82, R85; notes/assumptions/13.md, 14.md): a frame or a length field as the arrival of
its bytes, kept in the transport or taken by the framer. -/

namespace Sys2Proof.Machine

/-! ## Bytes in a row -/

theorem exec_wire {s : State} {i : Instr} {bs : List Byte} (h : wireBytes s.cfg i = some bs) :
    exec i s = receiveBytes bs s.begin := by
  cases i with
  | frameS _ _ _ | frameL _ _ _ | lenS _ | lenL _ =>
    cases h
    rfl
  | crc16 _ | encode _ | decode _ | connect | disconnect | sendCommand _ _ _ _ | readOne _ _ | xmit _ | flush
  | rawDrain _ _ | crcInit | crcByte _ | reserved0 | reservedD | reservedE | reservedF | reset | rxByte _ | rxError
  | txDrained | txError | openOk | openFail | tick | fwVersion | getValues _ | forwardCan _ _ | pingCan
  | getCustomConfig _ | bmsGetValues => cases h

/-- Settles O40: outside a read wait every byte is kept. -/
theorem wireRowsWaitOutsideReads : Obligations.WireRowsWaitOutsideReads := by
  intro s i bs hwire h₁ h₂
  rw [exec_wire hwire]
  exact receiveBytes_kept (s := s.begin) (readWait_eq_false h₁ h₂) bs

theorem receiveBytes_append {bs cs : List Byte} {s t : State} (h : receiveBytes bs s = .next t) :
    receiveBytes (bs ++ cs) s = receiveBytes cs t := by
  induction bs generalizing s with
  | nil =>
    cases h
    rfl
  | cons b bs ih =>
    obtain ⟨u, hb, hbs⟩ := receiveBytes_cons_next h
    rw [List.cons_append, receiveBytes_cons hb, ih hbs]

theorem receiveBytes_singleton {b : Byte} {s t : State} (h : receiveByte b s = .next t) :
    receiveBytes [b] s = .next t := receiveBytes_cons h

/-! ## The arrival of a byte does not look at what was put out -/

section
variable {s t : State} {b : Byte}

theorem awaitFail_out (ca : Cause) (c st : Bool) (s : State) (o : List Output) :
    ∃ o', awaitFail ca c st { s with out := o } = { awaitFail ca c st s with out := o' } := by
  by_cases hop : s.cOp = .sendCommand
  · exact ⟨_, by rw [awaitFail_sendCommand hop, awaitFail_sendCommand (s := { s with out := o }) hop]; rfl⟩
  · exact ⟨_, by rw [awaitFail_other hop, awaitFail_other (s := { s with out := o }) hop]; rfl⟩

theorem awaitingByte_out (h : awaitingByte b s = .next t) (o : List Output) :
    ∃ o', awaitingByte b { s with out := o } = .next { t with out := o' } := by
  obtain ⟨⟨g, v⟩, hstep, -⟩ := orBounds_next h
  cases v with
  | pending =>
    obtain rfl := Host.Outcome.next.inj (h.symm.trans (awaitingByte_pending hstep))
    exact ⟨_, awaitingByte_pending (s := { s with out := o }) hstep⟩
  | accept p =>
    obtain rfl := Host.Outcome.next.inj (h.symm.trans (awaitingByte_accept hstep))
    exact ⟨_, awaitingByte_accept (s := { s with out := o }) hstep⟩
  | reject c st =>
    obtain rfl := Host.Outcome.next.inj (h.symm.trans (awaitingByte_reject hstep))
    obtain ⟨o', ho'⟩ := awaitFail_out .frameError c st { s with framer := g } o
    exact ⟨o', (awaitingByte_reject (s := { s with out := o }) hstep).trans (congrArg _ ho')⟩

theorem rawByte_out (h : rawByte b s = .next t) (o : List Output) :
    ∃ o', rawByte b { s with out := o } = .next { t with out := o' } := by
  obtain ⟨m, hwrite, -⟩ := orBounds_next h
  have hroom : s.dLen < s.cfg.drainMax := (bufWrite_eq_some.1 hwrite).1
  rw [rawByte_inside hroom] at h
  rw [rawByte_inside (s := { s with out := o }) hroom]
  split at h
  · next hlast =>
    rw [drainDone_eq (Nat.le_of_eq hlast)] at h
    obtain rfl := Host.Outcome.next.inj h
    exact ⟨_, (if_pos hlast).trans (drainDone_eq (Nat.le_of_eq hlast))⟩
  · next hmore =>
    obtain rfl := Host.Outcome.next.inj h
    exact ⟨_, if_neg hmore⟩

theorem takeRx_elsewhere (h₁ : s.cState ≠ .awaiting) (h₂ : s.cState ≠ .rawRead) : takeRx b s = .next s := by
  rw [takeRx]
  cases hs : s.cState with
  | awaiting => exact absurd hs h₁
  | rawRead => exact absurd hs h₂
  | disconnected | opening | settling | ready | txWait => rfl

theorem takeRx_out (h : takeRx b s = .next t) (o : List Output) :
    ∃ o', takeRx b { s with out := o } = .next { t with out := o' } := by
  by_cases h₁ : s.cState = .awaiting
  · rw [takeRx_awaiting h₁] at h
    rw [takeRx_awaiting (s := { s with out := o }) h₁]
    exact awaitingByte_out h o
  · by_cases h₂ : s.cState = .rawRead
    · rw [takeRx_rawRead h₂] at h
      rw [takeRx_rawRead (s := { s with out := o }) h₂]
      exact rawByte_out h o
    · rw [takeRx_elsewhere h₁ h₂] at h
      obtain rfl := Host.Outcome.next.inj h
      exact ⟨o, takeRx_elsewhere (s := { s with out := o }) h₁ h₂⟩

theorem receiveByte_out (h : receiveByte b s = .next t) (o : List Output) :
    ∃ o', receiveByte b { s with out := o } = .next { t with out := o' } := by
  obtain ⟨hwait, hr⟩ | ⟨hwait, hpending, hr⟩ | ⟨x, rest, hwait, hpending, hr⟩ := receiveByte_cases b s <;> rw [hr] at h
  · obtain rfl := Host.Outcome.next.inj h
    exact ⟨o, receiveByte_kept (s := { s with out := o }) hwait⟩
  · obtain ⟨o', ho'⟩ := takeRx_out h o
    exact ⟨o', (receiveByte_taken (s := { s with out := o }) hwait hpending).trans ho'⟩
  · obtain ⟨o', ho'⟩ := takeRx_out h o
    exact ⟨o', (receiveByte_behind (s := { s with out := o }) hwait hpending).trans ho'⟩

/-- Bytes that arrive in one step arrive as well one step each, but for what is put out. -/
theorem execAll_rxBytes {bs : List Byte} (h : receiveBytes bs s = .next t) (o : List Output) :
    ∃ o', execAll (bs.map .rxByte) { s with out := o } = .next { t with out := o' } := by
  induction bs generalizing s o with
  | nil =>
    cases h
    exact ⟨o, rfl⟩
  | cons b bs ih =>
    obtain ⟨u, hb, hbs⟩ := receiveBytes_cons_next h
    obtain ⟨o₁, hb'⟩ := receiveByte_out hb []
    obtain ⟨o', hbs'⟩ := ih hbs o₁
    exact ⟨o', (execAll_cons ((exec_rxByte b { s with out := o }).trans hb')).trans hbs'⟩

end

/-- Settles O38: the row is its bytes in one step. -/
theorem wireRowsAreTheirBytes : Obligations.WireRowsAreTheirBytes := by
  intro s t i bs hwire ht
  rw [exec_wire hwire] at ht
  exact execAll_rxBytes ht s.out

/-! ## Bytes the framer takes without a verdict -/

section
variable {cfg : Params} {s : State} {f g : Framer}

theorem receiveBytes_consumes {bs : List Byte} (hstate : s.cState = .awaiting) (hpending : s.net.rxPending = [])
    (h : Consumes s.cfg s.framer bs g) : receiveBytes bs s = .next { s with framer := g } := by
  induction bs generalizing s with
  | nil =>
    cases h
    rfl
  | cons b bs ih =>
    cases h with
    | cons step rest =>
      have hbyte := receiveByte_taken (b := b) (readWait_iff.2 (.inl hstate)) hpending
      rw [takeRx_awaiting hstate, awaitingByte_pending step] at hbyte
      exact (receiveBytes_cons hbyte).trans (ih hstate hpending rest)

/-! ## The length field alone -/

theorem consumes_shortLength (hstate : f.state = .readLength) (hlen2 : f.len2 = false) {b : Byte} (hb : b.msb = false) :
    Consumes cfg f [b] (afterLength { f with len := b.setWidth 15 }) :=
  .cons (framerStep_lengthShort hstate hlen2 hb) (.nil _)

theorem consumes_longLength (hstate : f.state = .readLength) (hlen2 : f.len2 = false) (n : U15) :
    Consumes cfg f (lenFieldLong n) (afterLength { f with len := n }) := by
  obtain ⟨hmsb, -⟩ := longLength n
  have hlen : setLenLow (setLenHigh f.len (1#1 ++ n.extractLsb' 8 7)) (n.extractLsb' 0 8) = n :=
    (setLenLow_setLenHigh _ _ _).trans (lenFieldLong_value n)
  have hsecond := framerStep_lengthSecond (cfg := cfg)
    (f := { f with len := setLenHigh f.len (1#1 ++ n.extractLsb' 8 7), len2 := true }) hstate rfl (n.extractLsb' 0 8)
  simp only [hlen] at hsecond
  rw [← hlen2] at hsecond
  exact .cons (framerStep_lengthFirst hstate hlen2 hmsb) (.cons hsecond (.nil _))

end

/-- Settles O41: either form leads the framer to `AfterLength` of its value. -/
theorem lengthFieldSetsTheLength : Obligations.LengthFieldSetsTheLength := by
  intro s i n hi hstate hpending hframer hlen2
  have hexec : exec i s = .next { s with framer := afterLength { s.framer with len := n }, out := [] } := by
    obtain rfl | ⟨m, rfl, rfl⟩ := hi
    · rw [exec_wire rfl]
      exact receiveBytes_consumes (s := s.begin) hstate hpending (consumes_longLength hframer hlen2 n)
    · have hvalue : (0#1 ++ m : Byte).setWidth 15 = m.setWidth 15 := by
        refine BitVec.eq_of_toNat_eq ?_
        rw [BitVec.toNat_setWidth, BitVec.toNat_append]
        simp
      have hlength := consumes_shortLength (cfg := s.cfg) hframer hlen2 (shortLength_msb m)
      rw [hvalue] at hlength
      rw [exec_wire rfl]
      exact receiveBytes_consumes (s := s.begin) hstate hpending hlength
  refine ⟨fun hn => ?_, fun hn => ?_⟩
  · rw [hexec, afterLength_nonempty (f := { s.framer with len := n }) hn]
  · rw [hexec, afterLength_empty (f := { s.framer with len := n }) hn]

end Sys2Proof.Machine
end

section
/-! A whole frame arriving in `AWAITING` (R151 to R156, R161, R197): the framer takes it up to its stop byte, having
stored its payload and nothing else, and the stop byte gives the verdict. -/

namespace Sys2Proof.Machine

section
variable {cfg : Params} {f g : Framer} {N : Nat} {p q : List Byte} {b : Byte} {v : Verdict}

/-! ## What the frame leaves in `RXBUF` -/

theorem framerStep_payload_rxbuf (h : f.state = .readPayload) (hstep : framerStep cfg f b = some (g, v)) :
    g.rxbuf = memWrite f.rxbuf f.cnt.toNat b := by
  rw [framerStep, h] at hstep
  obtain ⟨g', hg', he⟩ := Option.map_eq_some_iff.1 hstep
  cases he
  obtain ⟨-, ⟨-, rfl⟩ | ⟨-, rfl⟩⟩ := stepReadPayload_cases hg' <;> rfl

/-- Payload bytes are stored below the length of the frame; every index from there on reads as before (R153). -/
theorem Receiving.consumes_memRead (h : Receiving N p f) (hfit : p.length + q.length ≤ N) :
    ∃ g, Consumes cfg f q g ∧ Receiving N (p ++ q) g ∧ ∀ j, N ≤ j → memRead g.rxbuf j = memRead f.rxbuf j := by
  induction q generalizing p f with
  | nil => exact ⟨f, .nil f, by rwa [List.append_nil], fun _ _ => rfl⟩
  | cons b q ih =>
    rw [List.length_cons] at hfit
    have hmissing : p.length < N := by omega
    obtain ⟨f₁, hstep, h₁⟩ := h.step cfg hmissing b
    obtain ⟨g, hrest, hg, hread⟩ := ih h₁ (by rw [List.length_append, List.length_singleton]; omega)
    refine ⟨g, .cons hstep hrest, by rwa [List.append_assoc] at hg, fun j hj => ?_⟩
    have hstate : f.state = .readPayload := by rw [h.state, if_pos hmissing]
    have hother : f.cnt.toNat ≠ j := by rw [h.cnt]; omega
    rw [hread j hj, framerStep_payload_rxbuf hstate hstep, memRead_memWrite_other h.wf hother]

theorem consumes_crcField_of_readCrc (hstate : f.state = .readCrc) (hcrcidx : f.crcidx = false) (c : U16) :
    Consumes cfg f (crcField c) { f with rxcrc := c, crcidx := false, state := .readStop } := by
  have hsecond := framerStep_crcSecond (cfg := cfg)
    (f := { f with rxcrc := setCrcHigh f.rxcrc (c.extractLsb' 8 8), crcidx := true }) hstate rfl (c.extractLsb' 0 8)
  simp only [setCrcLow_setCrcHigh] at hsecond
  exact .cons (framerStep_crcFirst hstate hcrcidx _) (.cons hsecond (.nil _))

theorem storedAt_of_memBytes {m₀ m : Memory} (hbytes : memBytes m p.length = p)
    (habove : ∀ j, p.length ≤ j → memRead m j = memRead m₀ j) : StoredAt m₀ m 0 p := by
  refine ⟨fun j hj => ?_, fun j hj => habove j (by omega)⟩
  have hget : (memBytes m p.length)[j]? = some (memRead m j) := by simp [memBytes, hj]
  rw [hbytes, List.getElem?_eq_getElem hj] at hget
  rw [Nat.zero_add, ← Option.some.inj hget]
  exact (List.getD_eq_getElem _ _ hj).symm

/-! ## Up to the stop byte -/

theorem afterLength_rxbuf (f : Framer) : (afterLength f).rxbuf = f.rxbuf := by
  by_cases h : f.len = 0
  · rw [afterLength_empty h]
  · rw [afterLength_nonempty h]

/-- A length field of either form that says how long the payload is, the payload and any CRC field. -/
theorem consumes_body {lengthField : List Byte} {n : U15} (hidle : FramerIdle f) (hwf : f.rxbuf.wf = true)
    (hn : n.toNat = p.length) (hlength : ∀ f : Framer, f.state = .readLength → f.len2 = false →
      Consumes cfg f lengthField (afterLength { f with len := n })) (c : U16) :
    ∃ g, Consumes cfg f (cfg.startMarker :: (lengthField ++ p ++ crcField c)) g ∧ AtStop p c g ∧
      StoredAt f.rxbuf g.rxbuf 0 p := by
  obtain ⟨hstate, -, hcrcidx⟩ := hidle
  have hheader := hlength { f with state := .readLength, len2 := false } rfl rfl
  have hstart : Receiving p.length [] (afterLength { f with state := .readLength, len2 := false, len := n }) :=
    receiving_afterLength hn rfl hcrcidx hwf
  obtain ⟨g, hpayload, hg, hread⟩ := hstart.consumes_memRead (cfg := cfg) (q := p) (by simp)
  rw [List.nil_append] at hg
  have hcrcState : g.state = .readCrc := by rw [hg.state, if_neg (Nat.lt_irrefl _)]
  refine ⟨_, .cons (framerStep_startMarker hstate)
    ((hheader.append hpayload).append (consumes_crcField_of_readCrc hcrcState hg.crcidx c)), ?_, ?_⟩
  · exact ⟨rfl, hg.len2, rfl, hg.crc, rfl, (congrArg (memBytes g.rxbuf) hg.len).trans hg.stored⟩
  · refine storedAt_of_memBytes hg.stored fun j hj => ?_
    rw [hread j hj, afterLength_rxbuf]

/-- The inputs that are a frame around `p` with the given CRC field and stop byte. -/
def IsFrame (i : Instr) (p : List Byte) (crc : U16) (stop : Byte) : Prop :=
  (i = .frameS p crc stop ∧ p.length < 128) ∨ (i = .frameL p crc stop ∧ p.length ≤ 32767)

theorem consumes_frame {i : Instr} {crc : U16} {stop : Byte} (hi : IsFrame i p crc stop) (hidle : FramerIdle f)
    (hwf : f.rxbuf.wf = true) :
    ∃ body g, wireBytes cfg i = some (body ++ [stop]) ∧ Consumes cfg f body g ∧ AtStop p crc g ∧
      StoredAt f.rxbuf g.rxbuf 0 p := by
  obtain ⟨rfl, hp⟩ | ⟨rfl, hp⟩ := hi
  · obtain ⟨hmsb, hval⟩ := shortLength hp
    have hn : ((BitVec.ofNat 8 p.length).setWidth 15).toNat = p.length := by
      rw [BitVec.toNat_setWidth, hval]
      omega
    obtain ⟨g, hbody, hstop, hstored⟩ := consumes_body (cfg := cfg) hidle hwf hn
      (fun _ hs hl => consumes_shortLength hs hl hmsb) crc
    refine ⟨_, g, ?_, hbody, hstop, hstored⟩
    simp [wireBytes, wireFrameS]
  · have hn : (BitVec.ofNat 15 p.length).toNat = p.length := by
      rw [BitVec.toNat_ofNat]
      omega
    obtain ⟨g, hbody, hstop, hstored⟩ := consumes_body (cfg := cfg) hidle hwf hn
      (fun _ hs hl => consumes_longLength hs hl _) crc
    refine ⟨_, g, ?_, hbody, hstop, hstored⟩
    simp [wireBytes, wireFrameL]

/-! ## The stop byte -/

/-- The framer that has given its verdict. -/
theorem AtStop.idle {c : U16} (h : AtStop p c f) : FramerIdle { f with state := .seekStart } := ⟨rfl, h.len2, h.crcidx⟩

theorem AtStop.step_right {c : U16} (h : AtStop p c f) (hc : c = crc16 p) (hb : b = cfg.stopMarker) :
    framerStep cfg f b = some ({ f with state := .seekStart }, .accept p) := by
  have hcrc : f.rxcrc = f.crc := by rw [h.rxcrc, h.crc, hc]
  rw [framerStep_accept h.state hcrc hb, h.stored]

theorem AtStop.step_wrong {c : U16} (h : AtStop p c f) (hbad : ¬(c = crc16 p ∧ b = cfg.stopMarker)) :
    framerStep cfg f b = some ({ f with state := .seekStart },
      .reject (decide (c ≠ crc16 p)) (decide (b ≠ cfg.stopMarker))) := by
  have hcrc : f.rxcrc = f.crc ↔ c = crc16 p := by rw [h.rxcrc, h.crc]
  rw [framerStep_reject h.state (by rwa [hcrc]), decide_eq_decide.2 (not_congr hcrc)]

theorem idleFramer_of_idle (h : FramerIdle f) : idleFramer f = f := by
  obtain ⟨hstate, hlen2, hcrcidx⟩ := h
  cases f
  cases hstate
  cases hlen2
  cases hcrcidx
  rfl

end

/-- In `AWAITING` with nothing pending, the last byte of a row is the framer's step of it. -/
theorem exec_wire_awaiting {s : State} {i : Instr} {body : List Byte} {stop : Byte} {g : Framer} {t : State}
    (hwire : wireBytes s.cfg i = some (body ++ [stop])) (hstate : s.cState = .awaiting)
    (hpending : s.net.rxPending = []) (hbody : Consumes s.cfg s.framer body g)
    (hlast : awaitingByte stop { s with framer := g, out := [] } = .next t) : exec i s = .next t := by
  rw [exec_wire hwire, receiveBytes_append (receiveBytes_consumes (s := s.begin) hstate hpending hbody)]
  have htaken : receiveByte stop { s with framer := g, out := [] } = takeRx stop { s with framer := g, out := [] } :=
    receiveByte_taken (readWait_iff.2 (.inl hstate)) hpending
  exact receiveBytes_singleton ((htaken.trans (takeRx_awaiting hstate)).trans hlast)

/-- Settles O39: the body leads the framer to the stop byte, and the two checks there decide. -/
theorem arrivingFrameEndsTheRead : Obligations.ArrivingFrameEndsTheRead := by
  intro s i p crc stop hi hstate hidle hwf hpending
  obtain ⟨body, g, hwire, hbody, hstop, hstored⟩ := consumes_frame (cfg := s.cfg) hi hidle hwf
  refine ⟨{ g with state := .seekStart }, hstop.idle, hstored, fun hc hb => ?_, fun hbad hop => ?_, fun hbad hop => ?_⟩
  · exact exec_wire_awaiting hwire hstate hpending hbody
      (awaitingByte_accept (s := { s with framer := g, out := [] }) (hstop.step_right hc hb))
  · exact exec_wire_awaiting hwire hstate hpending hbody
      (awaitingByte_begin_reject_sendCommand (s := { s with framer := g }) (hstop.step_wrong hbad) hop)
  · have hlast := awaitingByte_begin_reject_other (s := { s with framer := g }) (hstop.step_wrong hbad) hop
    rw [idleFramer_of_idle hstop.idle] at hlast
    exact exec_wire_awaiting hwire hstate hpending hbody hlast

end Sys2Proof.Machine
end

section
/-! SEND_COMMAND up to its read, and the frame that answers it (R62, R193 to R201): the same state as by XMIT, FLUSH and
READ_ONE, and whatever frame is read next. -/

namespace Sys2Proof.Machine

/-- What a copied payload reads as fixes the buffer. -/
theorem Loaded.unique {m₀ m n : Memory} {p : List Byte} (hm : Loaded m₀ m p) (hn : Loaded m₀ n p) : m = n := by
  obtain ⟨⟨hstored, hother⟩, hwf, -⟩ := hm
  obtain ⟨⟨hstored', hother'⟩, hwf', -⟩ := hn
  refine eq_of_memRead_eq hwf hwf' fun j => ?_
  by_cases hj : j < p.length
  · have hread := (hstored j hj).trans (hstored' j hj).symm
    rwa [Nat.zero_add] at hread
  · rw [hother j (by omega), hother' j (by omega)]

section
variable {s : State} {cmd : Byte} {args : List Byte} {useDefault : Bool} {timeout : U32}

/-! ## The request and its drain -/

/-- The request of `p` has been sent from `s` and waits for its drain under the timeout `t` (R193). -/
def requested (s : State) (p : List Byte) (t : U32) (m : Memory) : State :=
  { sent s (frameBytes s.cfg p) with txbuf := m, crc := crc16 p, tLat := t, cOp := .sendCommand, cState := .txWait }

/-- The request of `p` has drained and the read of its answer has begun under the timeout `t` (R195). -/
def readStarted (s : State) (p : List Byte) (t : U32) (m : Memory) : State :=
  { requested s p t m with
    net := { s.net with tx := s.net.tx ++ frameBytes s.cfg p, undrained := [] }
    timer := t, cState := .awaiting, out := [] }

theorem exec_sendCommand_requested (hstate : s.cState = .ready) (hconnected : s.connected = true)
    (hwf : s.txbuf.wf = true) (hargs : args.length ≤ 32766) :
    ∃ m, Loaded s.txbuf m (cmd :: args) ∧ exec (.sendCommand cmd args useDefault timeout) s =
      .next (requested s (cmd :: args) (effectiveTimeout s useDefault timeout) m) :=
  exec_request_connected (hostReady_iff.2 (.inr hstate)) hconnected hwf rfl (Nat.succ_le_succ hargs)

theorem execAll_sendCommand_txDrained (hstate : s.cState = .ready) (hconnected : s.connected = true)
    (hwf : s.txbuf.wf = true) (hargs : args.length ≤ 32766) (ht : effectiveTimeout s useDefault timeout ≠ 0#32) :
    ∃ m, Loaded s.txbuf m (cmd :: args) ∧ execAll [.sendCommand cmd args useDefault timeout, .txDrained] s =
      .next (readStarted s (cmd :: args) (effectiveTimeout s useDefault timeout) m) := by
  obtain ⟨m, hm, hexec⟩ := exec_sendCommand_requested hstate hconnected hwf hargs
  refine ⟨m, hm, (execAll_cons hexec).trans (execAll_cons ?_)⟩
  rw [exec_txDrained_txWait rfl, drained_sendCommand_armed rfl ht]
  rfl

/-- A timeout of 0 closes the connection as the drain is reported (R199, R201). -/
theorem execAll_sendCommand_txDrained_zero (hstate : s.cState = .ready) (hconnected : s.connected = true)
    (hwf : s.txbuf.wf = true) (hargs : args.length ≤ 32766) (ht : effectiveTimeout s useDefault timeout = 0#32) :
    ∃ m, Loaded s.txbuf m (cmd :: args) ∧ execAll [.sendCommand cmd args useDefault timeout, .txDrained] s =
      .next (closedWith { requested s (cmd :: args) 0#32 m with timer := 0#32 } (absentRecord .timeout)) := by
  obtain ⟨m, hm, hexec⟩ := exec_sendCommand_requested (cmd := cmd) hstate hconnected hwf hargs
  rw [ht] at hexec
  refine ⟨m, hm, (execAll_cons hexec).trans (execAll_cons ?_)⟩
  rw [exec_txDrained_txWait rfl, drained_sendCommand_zero rfl rfl]

/-! ## The same by XMIT, FLUSH and READ_ONE -/

/-- XMIT, FLUSH and the drain of what was written (R205 to R208). -/
def flushed (s : State) (p : List Byte) (m : Memory) : State :=
  { endedWith s (okRecord []) with
    txbuf := m, crc := crc16 p, cState := .ready
    net := { s.net with tx := s.net.tx ++ frameBytes s.cfg p, undrained := [] } }

theorem execAll_xmit_flush_txDrained {p : List Byte} (hstate : s.cState = .ready) (hconnected : s.connected = true)
    (hwf : s.txbuf.wf = true) (hp : p.length ≤ 32767) :
    ∃ m, Loaded s.txbuf m p ∧ execAll [.xmit p, .flush, .txDrained] s = .next (flushed s p m) := by
  have hready : hostReady s = true := hostReady_iff.2 (.inr hstate)
  obtain ⟨m, hm, hxmit⟩ := exec_xmit_connected hready hconnected hwf hp
  refine ⟨m, hm, (execAll_cons hxmit).trans ((execAll_cons (exec_flush_connected ?_ ?_)).trans (execAll_cons ?_))⟩
  · exact hready
  · exact hconnected
  · rw [exec_txDrained_txWait rfl, drained_flush rfl]
    rfl

end

/-- Settles O51: both ways load the same `TXBUF`, so the two states can be read off side by side. -/
theorem sendCommandIsXmitFlushRead : Obligations.SendCommandIsXmitFlushRead := by
  intro s cmd args useDefault timeout hstate hconnected hwf hargs
  have hp : (cmd :: args).length ≤ 32767 := Nat.succ_le_succ hargs
  obtain ⟨m, hm, hflushed⟩ := execAll_xmit_flush_txDrained hstate hconnected hwf hp
  have hready : hostReady (flushed s (cmd :: args) m) = true := hostReady_iff.2 (.inr rfl)
  refine ⟨fun ht => ?_, fun ht => ?_⟩
  · obtain ⟨n, hn, hsend⟩ := execAll_sendCommand_txDrained (cmd := cmd) hstate hconnected hwf hargs ht
    obtain rfl := hm.unique hn
    have hread : execAll [.readOne useDefault timeout] (flushed s (cmd :: args) m) = _ :=
      execAll_cons (exec_readOne_armed hready hconnected ht)
    exact ⟨_, _, hsend, (execAll_append hflushed).trans hread, rfl, rfl⟩
  · obtain ⟨n, hn, hsend⟩ := execAll_sendCommand_txDrained_zero (cmd := cmd) hstate hconnected hwf hargs ht
    obtain rfl := hm.unique hn
    have hread : execAll [.readOne useDefault timeout, .disconnect] (flushed s (cmd :: args) m) = _ :=
      (execAll_cons (exec_readOne_zero hready hconnected ht)).trans (execAll_cons (exec_disconnect_ready rfl))
    exact ⟨_, _, hsend, (execAll_append hflushed).trans hread, rfl, rfl⟩

/-! ## A frame that is already pending -/

section
variable {s : State} {bs rest : List Byte} {g : Framer}

/-- With nothing presented and nothing latched in `AWAITING`, a step takes the oldest pending byte (R40, R51). -/
theorem step_awaiting_pending {b : Byte} (hstate : s.cState = .awaiting) (hinputs : s.inputs = [])
    (hrx : s.net.rxFailed = false) (htx : s.net.txFailed = false) (hpending : s.net.rxPending = b :: rest) :
    step s = awaitingByte b { s with net := { s.net with rxPending := rest }, out := [] } := by
  have hturn : step s = transportTurn s := step_idle (fun h => by simp [hostReady, hstate] at h) hinputs
  rw [step_turn_noFailure hturn (readWait_iff.2 (.inl hstate)) hrx htx, raiseByte_head (s := s.begin) hpending]
  exact takeRx_awaiting hstate

/-- A frame that is pending is taken a byte a step; its last byte is the framer's step of it. -/
theorem stepTimes_frame {stop : Byte} {t : State} (hstate : s.cState = .awaiting) (hinputs : s.inputs = [])
    (hrx : s.net.rxFailed = false) (htx : s.net.txFailed = false) (hpending : s.net.rxPending = bs ++ [stop] ++ rest)
    (h : Consumes s.cfg s.framer bs g)
    (hlast : awaitingByte stop { s with framer := g, net := { s.net with rxPending := rest }, out := [] } = .next t) :
    stepTimes (bs ++ [stop]).length s = .next t := by
  induction bs generalizing s with
  | nil =>
    cases h
    exact stepTimes_succ ((step_awaiting_pending hstate hinputs hrx htx hpending).trans hlast)
  | cons b bs ih =>
    cases h with
    | cons hfirst hrest =>
      have hbyte := (step_awaiting_pending hstate hinputs hrx htx hpending).trans (awaitingByte_pending hfirst)
      exact (stepTimes_succ hbyte).trans (ih hstate hinputs hrx htx rfl hrest hlast)

end

/-- Settles O50: the request leaves the framer and what is pending as they were, so the frame that arrives, or the one
that is pending, is the first the framer sees. -/
theorem nextFrameIsTheResponse : Obligations.NextFrameIsTheResponse := by
  intro s cmd args useDefault timeout p i hstate hconnected hidle htxbuf hrxbuf hargs ht hi
  obtain ⟨m, hm, hsend⟩ := execAll_sendCommand_txDrained (cmd := cmd) hstate hconnected htxbuf hargs ht
  refine ⟨fun hpending => ?arriving, fun bs rest hwire hpending hinputs hrx htx => ?pending⟩
  case arriving =>
    obtain ⟨f', hf', -, haccept, -⟩ := arrivingFrameEndsTheRead
      (readStarted s (cmd :: args) (effectiveTimeout s useDefault timeout) m) i p _ _ hi rfl hidle hrxbuf hpending
    have hrun := (execAll_append (js := [i]) hsend).trans (execAll_cons (haccept rfl rfl))
    exact ⟨_, hrun, rfl, hconnected, rfl, rfl, hf', rfl, hpending⟩
  case pending =>
    obtain ⟨body, g, hwire', hbody, hstop, -⟩ := consumes_frame (cfg := s.cfg) hi hidle hrxbuf
    obtain rfl := Option.some.inj (hwire.symm.trans hwire')
    have hread := stepTimes_frame (s := readStarted s (cmd :: args) (effectiveTimeout s useDefault timeout) m)
      rfl hinputs hrx htx hpending hbody (awaitingByte_accept (hstop.step_right rfl rfl))
    exact ⟨_, _, hsend, hread, rfl, hconnected, rfl, rfl, hstop.idle, rfl, rfl⟩

end Sys2Proof.Machine
end
